-- ==== Sys2Proof/Word.lean ====
section
/-! DEFINITION. The words of the protocol core (spec/00_scope.md R9): bytes, 24-bit register addresses, signed
16-bit values and packets. -/

namespace Sys2Proof

/-- `u8` of R9; bit 0 is the least significant bit. -/
abbrev Byte := BitVec 8

/-- `u24` of R9: a device register address (R43). -/
abbrev Addr24 := BitVec 24

/-- `s16` of R9: a two's-complement 16-bit value. -/
abbrev S16 := BitVec 16

/-- A packet or an input buffer: its bytes, byte 0 (the tag) first (R9, R41, R42). -/
abbrev Packet := List Byte

end Sys2Proof
end

