-- ==== Sys2Proof/Config.lean ====
section
/-! DEFINITION. The configuration record `Cfg` of spec/00_scope.md R5 and R6: every protocol constant is a
parameter. `Cfg.wf` says that a configuration lies inside the domains the spec states (R6, R7, R97, R104). The
reference values (REFCFG) are in Sys2Proof/Machine/RefCfg.lean. -/

namespace Sys2Proof

/-- The two button bytes, B1 = byte 1 and B2 = byte 2 of an input report (R62). -/
inductive BtnByte where
  | b1
  | b2
deriving DecidableEq, Repr

/-- One thing for each of the 11 buttons, in the order of R90. -/
structure Buttons (α : Type) where
  left : α
  right : α
  down : α
  up : α
  plus : α
  minus : α
  home : α
  one : α
  two : α
  a : α
  b : α
deriving DecidableEq, Repr

/-- Where a button's flag stands: its byte and its one-bit mask (R96, R97). -/
structure BtnSrc where
  byte : BtnByte
  mask : Byte
deriving DecidableEq, Repr

/-- One thing for each accelerometer axis. -/
structure Axes (α : Type) where
  x : α
  y : α
  z : α
deriving DecidableEq, Repr

/-- A source of one low-order accelerometer bit: a bit of a button byte, or the constant 0 (R101). -/
inductive BitSrc where
  | zero
  | bit (byte : BtnByte) (i : Fin 8)
deriving DecidableEq, Repr

/-- The two low-order bits of one axis (R99). -/
structure AccSrc where
  hi : BitSrc
  lo : BitSrc
deriving DecidableEq, Repr

/-- The 2-bit fields of an IR group's middle byte M, each by its lower bit: a field at `l` is M[l+1:l] (R103,
R104). -/
structure IrMid where
  ax : Fin 7
  ay : Fin 7
  bx : Fin 7
  bY : Fin 7
deriving DecidableEq, Repr

/-- The two calibration blocks of one sensitivity profile, 9 bytes and 2 bytes (R8, R170). -/
structure SensBlocks where
  blk1 : List Byte
  blk2 : List Byte
deriving DecidableEq, Repr

/-- `P_SENS`: the blocks of the seven profiles (R169, R175). -/
structure SensTable where
  level1 : SensBlocks
  level2 : SensBlocks
  level3 : SensBlocks
  level4 : SensBlocks
  level5 : SensBlocks
  custom1 : SensBlocks
  custom2 : SensBlocks
deriving DecidableEq, Repr

/-- `P_IR_MODE_BYTE`: the IR resolution mode bytes (R167). -/
structure IrModeBytes where
  basic : Byte
  extended : Byte
  full : Byte
deriving DecidableEq, Repr

/-- `P_OPEN_VARIANT` (R2, R195). -/
inductive OpenVariant where
  | single
  | multi
deriving DecidableEq, Repr

/-- The input tags (R6, R78). -/
structure InTags where
  btn : Byte
  btnAcc : Byte
  btnAccIrExt : Byte
  btnIrExt : Byte
  status : Byte
  readResult : Byte
  ack : Byte
deriving DecidableEq, Repr

/-- The output tags (R6, R79). -/
structure OutTags where
  rumble : Byte
  leds : Byte
  mode : Byte
  irPixClk : Byte
  spkEn : Byte
  wreg : Byte
  spkData : Byte
  spkMute : Byte
  irCam : Byte
deriving DecidableEq, Repr

/-- The configuration record of R6, one field per parameter. The three settle durations are optional: `none`
where no value is given (R6 gives none; log 3). -/
structure Cfg where
  /-- `P_PKT_LEN` -/
  pktLen : Nat
  /-- `P_ITAG_*` -/
  itag : InTags
  /-- `P_OTAG_*` -/
  otag : OutTags
  /-- `P_BTN` -/
  btn : Buttons BtnSrc
  /-- `P_ACC_SRC` -/
  accSrc : Axes AccSrc
  /-- `P_IR_MID` -/
  irMid : IrMid
  /-- `P_IR_OFF_ACC` -/
  irOffAcc : Nat
  /-- `P_IR_OFF_NOACC` -/
  irOffNoAcc : Nat
  /-- `P_STATUS_LED_BYTE` -/
  statusLedByte : Nat
  /-- `P_ENABLE` -/
  enable : Byte
  /-- `P_DISABLE` -/
  disable : Byte
  /-- `P_MODE_FLAGS` -/
  modeFlags : Byte
  /-- `P_WREG_SUB` -/
  wregSub : Byte
  /-- `P_SPK_SUB` -/
  spkSub : Byte
  /-- `P_REG_IR_CTRL` -/
  regIrCtrl : Addr24
  /-- `P_REG_IR_SENS1` -/
  regIrSens1 : Addr24
  /-- `P_REG_IR_SENS2` -/
  regIrSens2 : Addr24
  /-- `P_REG_IR_MODE` -/
  regIrMode : Addr24
  /-- `P_IR_TRIG_DETECT` -/
  irTrigDetect : Byte
  /-- `P_IR_TRIG_ENABLE` -/
  irTrigEnable : Byte
  /-- `P_IR_MODE_BYTE` -/
  irModeByte : IrModeBytes
  /-- `P_SENS` -/
  sens : SensTable
  /-- `P_T_WREG` -/
  tWreg : Option Nat
  /-- `P_T_IRCAL` -/
  tIrcal : Option Nat
  /-- `P_T_SPK` -/
  tSpk : Option Nat
  /-- `P_QUEUE_CAP` -/
  queueCap : Nat
  /-- `P_OPEN_VARIANT` -/
  openVariant : OpenVariant
deriving DecidableEq, Repr

/-- The seven input tags as a list. -/
def InTags.toList (t : InTags) : List Byte :=
  [t.btn, t.btnAcc, t.btnAccIrExt, t.btnIrExt, t.status, t.readResult, t.ack]

/-- The nine output tags as a list. -/
def OutTags.toList (t : OutTags) : List Byte :=
  [t.rumble, t.leds, t.mode, t.irPixClk, t.spkEn, t.wreg, t.spkData, t.spkMute, t.irCam]

/-- The eleven entries as a list. -/
def Buttons.toList {α : Type} (t : Buttons α) : List α :=
  [t.left, t.right, t.down, t.up, t.plus, t.minus, t.home, t.one, t.two, t.a, t.b]

/-- The seven profiles' blocks as a list. -/
def SensTable.toList (t : SensTable) : List SensBlocks :=
  [t.level1, t.level2, t.level3, t.level4, t.level5, t.custom1, t.custom2]

/-- The byte has exactly one bit set. -/
def oneBit (m : Byte) : Bool :=
  [0x01#8, 0x02#8, 0x04#8, 0x08#8, 0x10#8, 0x20#8, 0x40#8, 0x80#8].contains m

/-- Two 2-bit fields of one byte share no bit. -/
def fieldsApart (i j : Fin 7) : Bool := i.val + 2 ≤ j.val || j.val + 2 ≤ i.val

/-- R7: the input tags differ from each other, and so do the output tags. -/
def Cfg.tagsDistinct (c : Cfg) : Bool :=
  decide c.itag.toList.Nodup && decide c.otag.toList.Nodup

/-- R7: the two sentinels differ, and every byte the encoder puts at index 1 has bit 0 clear. -/
def Cfg.bytesOneClear (c : Cfg) : Bool :=
  decide (c.enable ≠ c.disable) && !c.enable.getLsbD 0 && !c.disable.getLsbD 0 && !c.modeFlags.getLsbD 0 &&
    !c.wregSub.getLsbD 0 && !c.spkSub.getLsbD 0

/-- R6, R97: eleven distinct (byte, mask) pairs, each mask one bit. -/
def Cfg.buttonsDistinct (c : Cfg) : Bool :=
  decide c.btn.toList.Nodup && c.btn.toList.all fun e => oneBit e.mask

/-- R104: the four fields of the middle byte are disjoint. -/
def Cfg.irMidDisjoint (c : Cfg) : Bool :=
  fieldsApart c.irMid.ax c.irMid.ay && fieldsApart c.irMid.ax c.irMid.bx && fieldsApart c.irMid.ax c.irMid.bY &&
    fieldsApart c.irMid.ay c.irMid.bx && fieldsApart c.irMid.ay c.irMid.bY && fieldsApart c.irMid.bx c.irMid.bY

/-- A packet holds the longest layouts (R82, R132), and the fields a report is read from follow the ones before
them inside the packet (R64, R65, R66). DEDUCED (log 4). -/
def Cfg.layoutFits (c : Cfg) : Bool :=
  decide (22 ≤ c.pktLen) && decide (6 ≤ c.irOffAcc) && decide (c.irOffAcc + 10 ≤ c.pktLen) &&
    decide (3 ≤ c.irOffNoAcc) && decide (c.irOffNoAcc + 10 ≤ c.pktLen) &&
    decide (1 ≤ c.statusLedByte) && decide (c.statusLedByte < c.pktLen)

/-- R8: block 1 has 9 bytes and block 2 has 2 in every profile; R25: the queue's capacity is 3. -/
def Cfg.sizesFixed (c : Cfg) : Bool :=
  (c.sens.toList.all fun e => decide (e.blk1.length = 9) && decide (e.blk2.length = 2)) && decide (c.queueCap = 3)

/-- The configuration is inside this spec (R5, R7): "A configuration that breaks these constraints is outside
this spec". -/
def Cfg.wf (c : Cfg) : Bool :=
  c.tagsDistinct && c.bytesOneClear && c.buttonsDistinct && c.irMidDisjoint && c.layoutFits && c.sizesFixed

end Sys2Proof
end

