-- ==== Sys2Proof/Machine/RefCfg.lean ====
section
/-! DEFINITION. REFCFG, the reference configuration of spec/00_scope.md R6, with the tables of R97 (buttons), R101
(accelerometer bits), R104 (IR middle byte), R167 (IR mode bytes) and R175 (sensitivity blocks). Most values are
marked `[from general knowledge, not in source]` by the spec: PRESUMED (log 2). -/

namespace Sys2Proof

/-- `P_ITAG_*` of REFCFG (R6, R78). -/
def refInTags : InTags where
  btn := 0x30
  btnAcc := 0x31
  btnAccIrExt := 0x37
  btnIrExt := 0x36
  status := 0x20
  readResult := 0x21
  ack := 0x22

/-- `P_OTAG_*` of REFCFG (R6). -/
def refOutTags : OutTags where
  rumble := 0x10
  leds := 0x11
  mode := 0x12
  irPixClk := 0x13
  spkEn := 0x14
  wreg := 0x16
  spkData := 0x18
  spkMute := 0x19
  irCam := 0x1A

/-- `P_BTN` of REFCFG (R97). -/
def refButtons : Buttons BtnSrc where
  left := { byte := .b1, mask := 0x01 }
  right := { byte := .b1, mask := 0x02 }
  down := { byte := .b1, mask := 0x04 }
  up := { byte := .b1, mask := 0x08 }
  plus := { byte := .b1, mask := 0x10 }
  two := { byte := .b2, mask := 0x01 }
  one := { byte := .b2, mask := 0x02 }
  b := { byte := .b2, mask := 0x04 }
  a := { byte := .b2, mask := 0x08 }
  minus := { byte := .b2, mask := 0x10 }
  home := { byte := .b2, mask := 0x80 }

/-- `P_ACC_SRC` of REFCFG (R101). -/
def refAccSrc : Axes AccSrc where
  x := { hi := .bit .b1 6, lo := .bit .b1 5 }
  y := { hi := .bit .b2 5, lo := .zero }
  z := { hi := .bit .b2 6, lo := .zero }

/-- `P_IR_MID` of REFCFG (R104): A.y = M[7:6], A.x = M[5:4], B.y = M[3:2], B.x = M[1:0]. -/
def refIrMid : IrMid where
  ay := 6
  ax := 4
  bY := 2
  bx := 0

/-- `P_SENS` of REFCFG (R175). -/
def refSens : SensTable where
  level1 := { blk1 := [0x02, 0x00, 0x00, 0x71, 0x01, 0x00, 0x64, 0x00, 0xFE], blk2 := [0xFD, 0x05] }
  level2 := { blk1 := [0x02, 0x00, 0x00, 0x71, 0x01, 0x00, 0x96, 0x00, 0xB4], blk2 := [0xB3, 0x04] }
  level3 := { blk1 := [0x02, 0x00, 0x00, 0x71, 0x01, 0x00, 0xAA, 0x00, 0x64], blk2 := [0x63, 0x03] }
  level4 := { blk1 := [0x02, 0x00, 0x00, 0x71, 0x01, 0x00, 0xC8, 0x00, 0x36], blk2 := [0x35, 0x03] }
  level5 := { blk1 := [0x07, 0x00, 0x00, 0x71, 0x01, 0x00, 0x72, 0x00, 0x20], blk2 := [0x1F, 0x03] }
  custom1 := { blk1 := [0x00, 0x00, 0x00, 0x00, 0x00, 0x00, 0x90, 0x00, 0xC0], blk2 := [0x40, 0x00] }
  custom2 := { blk1 := [0x00, 0x00, 0x00, 0x00, 0x00, 0x00, 0x90, 0x00, 0x41], blk2 := [0x40, 0x00] }

/-- REFCFG (R6). The settle durations have no value there ("none", OPEN). -/
def refCfg : Cfg where
  pktLen := 22
  itag := refInTags
  otag := refOutTags
  btn := refButtons
  accSrc := refAccSrc
  irMid := refIrMid
  irOffAcc := 6
  irOffNoAcc := 3
  statusLedByte := 3
  enable := 0x04
  disable := 0x00
  modeFlags := 0x00
  wregSub := 0x04
  spkSub := 0xA0
  regIrCtrl := 0xB00030
  regIrSens1 := 0xB00000
  regIrSens2 := 0xB0001A
  regIrMode := 0xB00033
  irTrigDetect := 0x08
  irTrigEnable := 0x08
  irModeByte := { basic := 0x01, extended := 0x03, full := 0x05 }
  sens := refSens
  tWreg := none
  tIrcal := none
  tSpk := none
  queueCap := 3
  openVariant := .single

end Sys2Proof
end

