-- ==== Sys2Proof/Syntax.lean ====
section
/-! DEFINITION. The instructions: one constructor of `Instr` per row of spec/opcode_table.json. The IN rows
(DEC_*) are the branches of the report multiplexer (spec/30_encoding.md R78), the CMD rows the caller's commands
(R76), the OUT rows the two internal micro-ops (spec/41_encoder.md R133, R134). A structure-typed operand makes an
ill-sized IR window impossible; the other size checks are in WellFormed. -/

namespace Sys2Proof

/-- The reporting modes, selectors 0 to 3 (R76, R138). -/
inductive ReportingMode where
  | btn
  | btnAcc
  | btnAccIrExt
  | btnIrExt
deriving DecidableEq, Repr

/-- The IR modes, indices 0 to 2 (R76, R167). -/
inductive IrMode where
  | basic
  | extended
  | full
deriving DecidableEq, Repr

/-- The sensitivities, indices 0 to 6 (R76, R169). -/
inductive Sensitivity where
  | level1
  | level2
  | level3
  | level4
  | level5
  | custom1
  | custom2
deriving DecidableEq, Repr

/-- The four tags a feature toggle may have (R70). -/
inductive FeatureTag where
  | irPixClk
  | irCam
  | spkEn
  | spkMute
deriving DecidableEq, Repr

/-- One 5-byte group of an IR window (R68): XA, YA, M, XB, YB. -/
structure IrGroup where
  xa : Byte
  ya : Byte
  m : Byte
  xb : Byte
  yb : Byte
deriving DecidableEq, Repr

/-- The instructions. -/
inductive Instr where
  /-- DEC_BTN (R95) -/
  | decBtn (b1 b2 : Byte)
  /-- DEC_BTN_ACC (R98) -/
  | decBtnAcc (b1 b2 ax ay az : Byte)
  /-- DEC_BTN_ACC_IR_EXT (R102) -/
  | decBtnAccIrExt (b1 b2 ax ay az : Byte) (g0 g1 : IrGroup)
  /-- DEC_BTN_IR_EXT (R106) -/
  | decBtnIrExt (b1 b2 : Byte) (g0 g1 : IrGroup)
  /-- DEC_STATUS (R107); the operand is the whole LED byte -/
  | decStatus (led : Byte)
  /-- DEC_READ_RESULT (R108) -/
  | decReadResult
  /-- DEC_ACK (R109) -/
  | decAck
  /-- DEC_UNKNOWN (R110) -/
  | decUnknown (tag : Byte)
  /-- DEC_EMPTY (R111) -/
  | decEmpty
  /-- MODE (R137) -/
  | mode (m : ReportingMode)
  /-- IRON (R168) -/
  | iron (m : IrMode) (sens : Sensitivity)
  /-- IROFF (R171) -/
  | iroff
  /-- LEDS (R139) -/
  | leds (mask : BitVec 4)
  /-- RUMBLE (R140) -/
  | rumble (on : Bool)
  /-- SPKEN (R141) -/
  | spken (on : Bool)
  /-- SPKMUTE (R142) -/
  | spkmute (mute : Bool)
  /-- SPKDATA (R172) -/
  | spkdata (samples : List Byte)
  /-- CMD_RESERVED (R81): a word whose code is reserved, as code and rest -/
  | cmdReserved (code : Byte) (rest : List Byte)
  /-- FEATURE (R133) -/
  | feature (t : FeatureTag) (on : Bool)
  /-- WREG (R134); the address may be given in a wider type (R136) -/
  | wreg (addr : Nat) (data : List Byte)
deriving DecidableEq, Repr

end Sys2Proof
end

