-- ==== Sys2Proof/WellFormed.lean ====
section
/-! DEFINITION. Which instructions have an encoding (spec/30_encoding.md R76 to R81, spec/41_encoder.md R134). -/

namespace Sys2Proof

/-- R81: the reserved command codes, 0x00 and 0x09 to 0xFF. -/
def reservedCode (code : Byte) : Bool := code.toNat = 0 || 9 ≤ code.toNat

/-- Each operand is inside the range its row states. DEC_UNKNOWN: the tag is none of R78's. SPKDATA: 20 samples.
CMD_RESERVED: the code is reserved. WREG: a 24-bit address and 1 to 16 data bytes. Every other operand is in range
by its type. -/
def WellFormed (c : Cfg) : Instr → Bool
  | .decBtn _ _ => true
  | .decBtnAcc _ _ _ _ _ => true
  | .decBtnAccIrExt _ _ _ _ _ _ _ => true
  | .decBtnIrExt _ _ _ _ => true
  | .decStatus _ => true
  | .decReadResult => true
  | .decAck => true
  | .decUnknown tag => !c.itag.toList.contains tag
  | .decEmpty => true
  | .mode _ => true
  | .iron _ _ => true
  | .iroff => true
  | .leds _ => true
  | .rumble _ => true
  | .spken _ => true
  | .spkmute _ => true
  | .spkdata samples => samples.length = 20
  | .cmdReserved code _ => reservedCode code
  | .feature _ _ => true
  | .wreg addr data => decide (addr < 2 ^ 24) && decide (1 ≤ data.length) && decide (data.length ≤ 16)

end Sys2Proof
end

