-- ==== Sys2Proof/Decode.lean ====
section
/-! DEFINITION. The report multiplexer's dispatch (spec/40_decoder.md R92, R93), the command-word decoder
(spec/30_encoding.md R76, R77) and the reading of the two internal micro-ops' packets (spec/30_encoding.md R70,
R74), total on any bytes, with rejection by name; after them the encoder, written from the same layouts. -/

namespace Sys2Proof

/-- What reaches the block, in one of the three formats of R60: an input buffer with its byte count, a command
word, or a packet of an internal micro-op. -/
inductive Wire where
  | input (buf : Packet) (n : Nat)
  | command (word : List Byte)
  | output (pkt : Packet)
deriving DecidableEq, Repr

/-- Why bytes are no instruction. `short` is R112 (the step gives it its effect, DG_SHORT). `emptyWord`,
`badLength` and `badOperand` are the ill-formed command words of R77 (the step raises E_BAD_COMMAND).
`notMicroOp` is a packet that is none of FEATURE and WREG (nothing hands the block such a packet). -/
inductive DecodeReject where
  | short (tag : Byte) (n : Nat)
  | emptyWord
  | badLength
  | badOperand
  | notMicroOp
deriving DecidableEq, Repr

/-- The decoder's answer. -/
inductive Decoded where
  | instr (i : Instr)
  | reject (r : DecodeReject)
deriving DecidableEq, Repr

/-- The known branches of R78, that is all but DEC_UNKNOWN. -/
inductive InBranch where
  | btn
  | btnAcc
  | btnAccIrExt
  | btnIrExt
  | status
  | readResult
  | ack
deriving DecidableEq, Repr

/-! ### Bytes and packets -/

/-- Byte `j` of a buffer; a byte beyond the listed ones is 0 (R83; log 16). -/
def byteAt (buf : Packet) (j : Nat) : Byte := buf.getD j 0

/-- `zeros(n)` of R10. -/
def zeros (n : Nat) : List Byte := List.replicate n 0

/-- `mkpkt` of R132: unused trailing bytes are zero. -/
def mkpkt (c : Cfg) (bs : List Byte) : Packet := bs ++ zeros (c.pktLen - bs.length)

/-- The 5-byte IR group that starts at byte `off` (R68). -/
def groupAt (buf : Packet) (off : Nat) : IrGroup where
  xa := byteAt buf off
  ya := byteAt buf (off + 1)
  m := byteAt buf (off + 2)
  xb := byteAt buf (off + 3)
  yb := byteAt buf (off + 4)

/-- The group's bytes in order (R68). -/
def IrGroup.bytes (g : IrGroup) : List Byte := [g.xa, g.ya, g.m, g.xb, g.yb]

/-! ### The report multiplexer -/

/-- The table of R78. By R7 at most one row matches. -/
def lookupTag (c : Cfg) (t : Byte) : Option InBranch :=
  if t = c.itag.btn then some .btn
  else if t = c.itag.btnAcc then some .btnAcc
  else if t = c.itag.btnAccIrExt then some .btnAccIrExt
  else if t = c.itag.btnIrExt then some .btnIrExt
  else if t = c.itag.status then some .status
  else if t = c.itag.readResult then some .readResult
  else if t = c.itag.ack then some .ack
  else none

/-- `reqlen` of R93. -/
def reqlen (c : Cfg) : InBranch → Nat
  | .btn => 3
  | .btnAcc => 6
  | .btnAccIrExt => max 6 (c.irOffAcc + 10)
  | .btnIrExt => max 3 (c.irOffNoAcc + 10)
  | .status => c.statusLedByte + 1
  | .readResult => 1
  | .ack => 1

/-- The branch's instruction, its operand bytes taken from the buffer (R62 to R67). -/
def readBranch (c : Cfg) (buf : Packet) : InBranch → Instr
  | .btn => .decBtn (byteAt buf 1) (byteAt buf 2)
  | .btnAcc => .decBtnAcc (byteAt buf 1) (byteAt buf 2) (byteAt buf 3) (byteAt buf 4) (byteAt buf 5)
  | .btnAccIrExt =>
    .decBtnAccIrExt (byteAt buf 1) (byteAt buf 2) (byteAt buf 3) (byteAt buf 4) (byteAt buf 5)
      (groupAt buf c.irOffAcc) (groupAt buf (c.irOffAcc + 5))
  | .btnIrExt =>
    .decBtnIrExt (byteAt buf 1) (byteAt buf 2) (groupAt buf c.irOffNoAcc) (groupAt buf (c.irOffNoAcc + 5))
  | .status => .decStatus (byteAt buf c.statusLedByte)
  | .readResult => .decReadResult
  | .ack => .decAck

/-- The dispatch of R92 on a count that is already clipped: the empty read first, then the tag, then the length
(R218). -/
def decodeClipped (c : Cfg) (buf : Packet) (n : Nat) : Decoded :=
  if n = 0 then .instr .decEmpty
  else
    match lookupTag c (byteAt buf 0) with
    | none => .instr (.decUnknown (byteAt buf 0))
    | some br => if n < reqlen c br then .reject (.short (byteAt buf 0) n) else .instr (readBranch c buf br)

/-- The report multiplexer: a count above `P_PKT_LEN` is taken as `P_PKT_LEN` (R91, D39). -/
def decodeInput (c : Cfg) (buf : Packet) (n : Nat) : Decoded := decodeClipped c buf (min n c.pktLen)

/-! ### Command words -/

/-- The length column of R76: the length of a word with this code; none for a reserved code. -/
def commandLength (code : Byte) : Option Nat :=
  match code.toNat with
  | 1 => some 2
  | 2 => some 3
  | 3 => some 1
  | 4 => some 2
  | 5 => some 2
  | 6 => some 2
  | 7 => some 2
  | 8 => some 21
  | _ => none

/-- The mode selector of R76. -/
def modeOfByte (b : Byte) : Option ReportingMode :=
  match b.toNat with
  | 0 => some .btn
  | 1 => some .btnAcc
  | 2 => some .btnAccIrExt
  | 3 => some .btnIrExt
  | _ => none

/-- The IR mode index of R76. -/
def irModeOfByte (b : Byte) : Option IrMode :=
  match b.toNat with
  | 0 => some .basic
  | 1 => some .extended
  | 2 => some .full
  | _ => none

/-- The sensitivity index of R76. -/
def sensOfByte (b : Byte) : Option Sensitivity :=
  match b.toNat with
  | 0 => some .level1
  | 1 => some .level2
  | 2 => some .level3
  | 3 => some .level4
  | 4 => some .level5
  | 5 => some .custom1
  | 6 => some .custom2
  | _ => none

/-- The LED mask of R76: bits [7:4] must be 0 (D34). -/
def maskOfByte (b : Byte) : Option (BitVec 4) :=
  if b.extractLsb' 4 4 = 0#4 then some (b.extractLsb' 0 4) else none

/-- An operand in {0, 1} (R76). -/
def boolOfByte (b : Byte) : Option Bool :=
  match b.toNat with
  | 0 => some false
  | 1 => some true
  | _ => none

/-- The command of a code and the bytes after it; none where an operand is outside its range (R77). -/
def commandOf (code : Byte) (ops : List Byte) : Option Instr :=
  match code.toNat, ops with
  | 1, [m] => (modeOfByte m).map .mode
  | 2, [m, sens] =>
    match irModeOfByte m, sensOfByte sens with
    | some im, some se => some (.iron im se)
    | _, _ => none
  | 3, [] => some .iroff
  | 4, [mask] => (maskOfByte mask).map .leds
  | 5, [on] => (boolOfByte on).map .rumble
  | 6, [on] => (boolOfByte on).map .spken
  | 7, [mute] => (boolOfByte mute).map .spkmute
  | 8, samples => some (.spkdata samples)
  | _, _ => none

/-- The command-word decoder (R76, R77): the code, then the length, then the operands. A word with a reserved code
is CMD_RESERVED (R81). -/
def decodeCommand : List Byte → Decoded
  | [] => .reject .emptyWord
  | code :: ops =>
    match commandLength code with
    | none => .instr (.cmdReserved code ops)
    | some k =>
      if ops.length + 1 = k then
        match commandOf code ops with
        | some i => .instr i
        | none => .reject .badOperand
      else .reject .badLength

/-! ### Packets of the internal micro-ops -/

/-- The output tag of a feature toggle (R70). -/
def featureTagByte (c : Cfg) : FeatureTag → Byte
  | .irPixClk => c.otag.irPixClk
  | .irCam => c.otag.irCam
  | .spkEn => c.otag.spkEn
  | .spkMute => c.otag.spkMute

/-- The feature toggle with this output tag. -/
def lookupFeature (c : Cfg) (t : Byte) : Option FeatureTag :=
  if t = c.otag.irPixClk then some .irPixClk
  else if t = c.otag.irCam then some .irCam
  else if t = c.otag.spkEn then some .spkEn
  else if t = c.otag.spkMute then some .spkMute
  else none

/-- A byte 1 with the rumble bit (bit 0, R69) taken out; every byte 1 the encoder makes has it clear (R7). -/
def withoutRumble (b : Byte) : Byte := b &&& 0xFE

/-- All bytes are zero. -/
def allZero (bs : List Byte) : Bool := bs.all fun b => b = 0

/-- The bytes of a feature toggle after its tag (R70). -/
def readFeature (c : Cfg) (t : FeatureTag) (pkt : Packet) : Decoded :=
  if !allZero (pkt.drop 2) then .reject .notMicroOp
  else if withoutRumble (byteAt pkt 1) = c.enable then .instr (.feature t true)
  else if withoutRumble (byteAt pkt 1) = c.disable then .instr (.feature t false)
  else .reject .notMicroOp

/-- The 24-bit address in bytes 2 to 4, big-endian (R45, R74). -/
def addrAt (pkt : Packet) : Nat :=
  (byteAt pkt 2).toNat * 65536 + (byteAt pkt 3).toNat * 256 + (byteAt pkt 4).toNat

/-- The bytes of a register write after its tag (R74): 1 to 16 data bytes, then zeros. -/
def readWreg (c : Cfg) (pkt : Packet) : Decoded :=
  let len := (byteAt pkt 5).toNat
  if withoutRumble (byteAt pkt 1) = c.wregSub && decide (1 ≤ len) && decide (len ≤ 16) &&
      allZero (pkt.drop (6 + len)) then
    .instr (.wreg (addrAt pkt) ((pkt.drop 6).take len))
  else .reject .notMicroOp

/-- The internal micro-op a packet carries, before or after the egress merge. -/
def decodeOutput (c : Cfg) (pkt : Packet) : Decoded :=
  if pkt.length ≠ c.pktLen then .reject .notMicroOp
  else if byteAt pkt 0 = c.otag.wreg then readWreg c pkt
  else
    match lookupFeature c (byteAt pkt 0) with
    | some t => readFeature c t pkt
    | none => .reject .notMicroOp

/-- The decoder, total on the three formats. -/
def decode (c : Cfg) : Wire → Decoded
  | .input buf n => decodeInput c buf n
  | .command word => decodeCommand word
  | .output pkt => decodeOutput c pkt

/-! ### The encoder -/

/-- The input tag of a branch (R78). -/
def branchTag (c : Cfg) : InBranch → Byte
  | .btn => c.itag.btn
  | .btnAcc => c.itag.btnAcc
  | .btnAccIrExt => c.itag.btnAccIrExt
  | .btnIrExt => c.itag.btnIrExt
  | .status => c.itag.status
  | .readResult => c.itag.readResult
  | .ack => c.itag.ack

/-- The selector of a reporting mode (R76, R138). -/
def modeByte : ReportingMode → Byte
  | .btn => 0
  | .btnAcc => 1
  | .btnAccIrExt => 2
  | .btnIrExt => 3

/-- The index of an IR mode (R76). -/
def irModeIndex : IrMode → Byte
  | .basic => 0
  | .extended => 1
  | .full => 2

/-- The index of a sensitivity (R76). -/
def sensIndex : Sensitivity → Byte
  | .level1 => 0
  | .level2 => 1
  | .level3 => 2
  | .level4 => 3
  | .level5 => 4
  | .custom1 => 5
  | .custom2 => 6

/-- An operand in {0, 1} (R76). -/
def boolByte (b : Bool) : Byte := if b then 1 else 0

/-- Byte `j` of a 24-bit address in big-endian order (R45), of an address reduced modulo 2^24 (R136). -/
def addrBytes (addr : Nat) : List Byte :=
  [BitVec.ofNat 8 (addr / 65536), BitVec.ofNat 8 (addr / 256), BitVec.ofNat 8 addr]

/-- The feature-toggle packet before the merge (R70, R133). -/
def featurePacket (c : Cfg) (t : FeatureTag) (on : Bool) : Packet :=
  mkpkt c [featureTagByte c t, if on then c.enable else c.disable]

/-- The register-write packet before the merge (R74, R134): at most 16 data bytes (R135). -/
def wregPacket (c : Cfg) (addr : Nat) (data : List Byte) : Packet :=
  mkpkt c ([c.otag.wreg, c.wregSub] ++ addrBytes addr ++ [BitVec.ofNat 8 (min data.length 16)] ++ data.take 16)

/-- A full-length input report with these bytes. -/
def inputReport (c : Cfg) (bs : List Byte) : Wire := .input (mkpkt c bs) c.pktLen

/-- The encoder: the report, command word or packet of an instruction (R62 to R67, R70, R74, R76). Bytes the layout
does not define are 0; DEC_EMPTY is a read with count 0 (R111). -/
def encode (c : Cfg) : Instr → Wire
  | .decBtn b1 b2 => inputReport c [branchTag c .btn, b1, b2]
  | .decBtnAcc b1 b2 ax ay az => inputReport c [branchTag c .btnAcc, b1, b2, ax, ay, az]
  | .decBtnAccIrExt b1 b2 ax ay az g0 g1 =>
    inputReport c
      ([branchTag c .btnAccIrExt, b1, b2, ax, ay, az] ++ zeros (c.irOffAcc - 6) ++ g0.bytes ++ g1.bytes)
  | .decBtnIrExt b1 b2 g0 g1 =>
    inputReport c ([branchTag c .btnIrExt, b1, b2] ++ zeros (c.irOffNoAcc - 3) ++ g0.bytes ++ g1.bytes)
  | .decStatus led => inputReport c ([branchTag c .status] ++ zeros (c.statusLedByte - 1) ++ [led])
  | .decReadResult => inputReport c [branchTag c .readResult]
  | .decAck => inputReport c [branchTag c .ack]
  | .decUnknown tag => inputReport c [tag]
  | .decEmpty => .input (mkpkt c []) 0
  | .mode m => .command [0x01, modeByte m]
  | .iron m sens => .command [0x02, irModeIndex m, sensIndex sens]
  | .iroff => .command [0x03]
  | .leds mask => .command [0x04, mask.zeroExtend 8]
  | .rumble on => .command [0x05, boolByte on]
  | .spken on => .command [0x06, boolByte on]
  | .spkmute mute => .command [0x07, boolByte mute]
  | .spkdata samples => .command (0x08 :: samples)
  | .cmdReserved code ops => .command (code :: ops)
  | .feature t on => .output (featurePacket c t on)
  | .wreg addr data => .output (wregPacket c addr data)

/-! ### Words as spec/opcode_table.json numbers them -/

/-- The first `k` bytes of a number, byte 0 the least significant. -/
def wordBytes (w k : Nat) : List Byte := (List.range k).map fun j => BitVec.ofNat 8 (w / 256 ^ j)

/-- The instruction bytes of a table word, all bits above `nbits` zero. The table's number does not say at which
port it arrives, and byte 0 settles it: a command code of R76 is a command word of its length, an output tag of
FEATURE or WREG is a micro-op's packet, no bits at all are a read with count 0, and anything else is a full-length
input report. DESIGN CHOICE (log 15). -/
def tableWire (c : Cfg) (nbits w : Nat) : Wire :=
  let v := w % 2 ^ nbits
  let b0 := BitVec.ofNat 8 v
  if nbits = 0 then .input (mkpkt c []) 0
  else
    match commandLength b0 with
    | some k => .command (wordBytes v k)
    | none =>
      if b0 = c.otag.wreg || (lookupFeature c b0).isSome then .output (wordBytes v c.pktLen)
      else .input (wordBytes v c.pktLen) c.pktLen

/-- The instruction the decoder reads from a table word, under REFCFG. -/
def decodeTableWord (nbits w : Nat) : Option Instr :=
  match decode refCfg (tableWire refCfg nbits w) with
  | .instr i => some i
  | .reject _ => none

end Sys2Proof
end

