-- ==== Sys2Proof/Machine/State.lean ====
section
/-! DEFINITION. The state of one session: the state vector (SESSION, RUMBLE, QUEUE, SEQ, DIAG) of
spec/10_state.md R33, the configuration the session is built with (R31), and the block's ports (R21) as lists: what
the caller and the transport will still supply, and what the block has put out. All of it is plain data. -/

namespace Sys2Proof.Machine

/-! ### Events (R90) -/

/-- A present IR object: two unsigned 10-bit values (R103). -/
structure IrObject where
  x : BitVec 10
  y : BitVec 10
deriving DecidableEq, Repr

/-- The four positional slots of an IR event (R105). -/
structure IrSlots where
  s0 : Option IrObject
  s1 : Option IrObject
  s2 : Option IrObject
  s3 : Option IrObject
deriving DecidableEq, Repr

/-- The Event type of R90. Accelerometer components are carried as `s16`, the LED state as `u8`. -/
inductive Event where
  | buttons (bs : Buttons Bool)
  | accel (x y z : S16)
  | leds (v : Byte)
  | ir (s : IrSlots)
deriving DecidableEq, Repr

/-! ### Errors and diagnostics -/

/-- The error codes of R211. -/
inductive ErrCode where
  | deviceNotFound
  | transport
  | closed
  | badCommand
deriving DecidableEq, Repr

/-- The errors of R211 with the recorded information. -/
inductive Err where
  | deviceNotFound
  | transportRead
  | transportWrite (i : Nat)
  | closed
  | badCommand (word : List Byte)
deriving DecidableEq, Repr

/-- The diagnostic records of R217. -/
inductive Diag where
  | unknownTag (tag : Byte)
  | short (tag : Byte) (n : Nat)
  | empty
deriving DecidableEq, Repr

/-! ### Sequencer -/

/-- The kinds of settle wait (R10, R160). -/
inductive WaitKind where
  | wreg
  | ircal
  | spk
deriving DecidableEq, Repr

/-- A micro-op: a packet before the merge, or a settle wait (R160). -/
inductive MicroOp where
  | pkt (p : Packet)
  | wait (k : WaitKind)
deriving DecidableEq, Repr

/-- SEQ: idle, or running a micro-op program with the index of the next micro-op (R26). -/
inductive Seq where
  | idle
  | run (prog : List MicroOp) (i : Nat)
deriving DecidableEq, Repr

/-- SESSION (R24): open, or closed with the code of the fatal error. -/
inductive Session where
  | isOpen
  | closed (code : ErrCode)
deriving DecidableEq, Repr

/-! ### Ports -/

/-- An operation the caller starts on a session (R190): `write` with the word presented at CMD, or `read`. -/
inductive Call where
  | write (word : List Byte)
  | read
deriving DecidableEq, Repr

/-- The transport's answer to a read: a buffer with its byte count, or a failure (R10, R21). -/
inductive ReadAnswer where
  | packet (buf : Packet) (n : Nat)
  | fail
deriving DecidableEq, Repr

/-- What the block puts on PKT_OUT and WAIT, in order. `sent`: the transport accepted the packet. `attempted`: the
transport's write of the packet failed, and whether the device got it is unknown (R219). `wait`: a settle wait. -/
inductive TraceItem where
  | sent (p : Packet)
  | attempted (p : Packet)
  | wait (k : WaitKind)
deriving DecidableEq, Repr

/-- How an operation ended (R210): a write returned ok, a read returned `Option Event` on RD, or an error was put on
ERR. -/
inductive Reply where
  | writeOk
  | readOk (e : Option Event)
  | error (e : Err)
deriving DecidableEq, Repr

/-! ### The state -/

/-- The state of one session. The first six fields are the spec's; the ports are the model's own way to hold inputs
and outputs (logs 1, 5, 6, 7, 8). -/
structure State where
  /-- the configuration, fixed for the life of the session (R31, R240) -/
  cfg : Cfg
  /-- SESSION (R24) -/
  session : Session
  /-- RUMBLE (R23) -/
  rumble : Bool
  /-- QUEUE (R25), front first -/
  queue : List Event
  /-- SEQ (R26) -/
  seq : Seq
  /-- DIAG (R28), oldest first -/
  diag : List Diag
  /-- the caller's operations not yet taken, oldest first -/
  calls : List Call
  /-- the transport's answers to the coming reads, the next first -/
  inbox : List ReadAnswer
  /-- whether the coming transport writes succeed, the next first; an unlisted one succeeds -/
  sendOk : List Bool
  /-- PKT_OUT and WAIT, oldest first -/
  trace : List TraceItem
  /-- RD and ERR, oldest first -/
  replies : List Reply
deriving DecidableEq, Repr

/-- Why a step of the machine has no next state. Both are the spec's "no step", not errors of the block; the
block's own errors are next states. -/
inductive Fault where
  /-- Raised by `step` when SEQ is idle and the caller has started no operation: "The block takes a step only when
  the caller starts an operation" (R20). Safe: nothing is claimed of a state that takes no step. -/
  | awaitingCaller
  /-- Raised by `step` when a read needs the transport and no answer is there: "a read whose transport never answers
  has no step" (R197). Not final: with an answer in `inbox` the same state takes a step. Safe. -/
  | awaitingTransport
deriving DecidableEq, Repr

/-- Why an instruction has no meaning. -/
inductive Refusal where
  /-- Raised by `exec` for an instruction that is not modelled. Safe. No arm uses it. -/
  | notModelled (mnemonic : String)
deriving DecidableEq, Repr

/-- The state of a session that `open()` has just built with a configuration (R195, R240). -/
def State.opened (c : Cfg) : State where
  cfg := c
  session := .isOpen
  rumble := false
  queue := []
  seq := .idle
  diag := []
  calls := []
  inbox := []
  sendOk := []
  trace := []
  replies := []

/-- The machine right after reset (R240), built with REFCFG (logs 1, 2). -/
def State.reset : State := State.opened refCfg

end Sys2Proof.Machine
end

