-- ==== Sys2Proof/Machine/Flags.lean ====
section
/-! DEFINITION. The block has no condition codes; its only status flags are RUMBLE and SESSION (spec/10_state.md
R29). This file holds the uses of them: the egress merge that writes RUMBLE into every packet
(spec/41_encoder.md R131), and the numeric codes of errors and diagnostics (spec/60_exceptions.md R211, R217). -/

namespace Sys2Proof.Machine

/-- `(b & 0xFE) | zext_8(RUMBLE)` of R131: bit 0 is overwritten, not ORed (C2). -/
def mergeByte (rumble : Bool) (b : Byte) : Byte := (b &&& 0xFE) ||| boolByte rumble

/-- The egress merge of R131: byte 1 is merged and every other byte is unchanged. -/
def merge (rumble : Bool) (p : Packet) : Packet := p.modify 1 (mergeByte rumble)

/-- The code of an error (R211). -/
def Err.code : Err → ErrCode
  | .deviceNotFound => .deviceNotFound
  | .transportRead => .transport
  | .transportWrite _ => .transport
  | .closed => .closed
  | .badCommand _ => .badCommand

/-- The number of an error code (R211). -/
def ErrCode.number : ErrCode → Nat
  | .deviceNotFound => 1
  | .transport => 2
  | .closed => 3
  | .badCommand => 4

/-- The number of a diagnostic (R217). -/
def Diag.code : Diag → Byte
  | .unknownTag _ => 0x01
  | .short _ _ => 0x02
  | .empty => 0x03

end Sys2Proof.Machine
end

