-- ==== Sys2Proof/Machine/Operands.lean ====
section
/-! DEFINITION. The bit-field extraction of the report decoder (spec/40_decoder.md R95 to R110): from operand bytes to
events. Pure functions of the bytes and of `Cfg` (R32, R94). -/

namespace Sys2Proof.Machine

/-! ### Buttons -/

/-- The button byte a table entry names. -/
def btnByte (b1 b2 : Byte) : BtnByte → Byte
  | .b1 => b1
  | .b2 => b2

/-- One flag: `(B_{byte(f)} & mask(f)) != 0` (R96). -/
def buttonFlag (b1 b2 : Byte) (e : BtnSrc) : Bool := decide (btnByte b1 b2 e.byte &&& e.mask ≠ 0)

/-- `decode_buttons(B1, B2)` of R96, with the table `P_BTN`. -/
def decodeButtons (c : Cfg) (b1 b2 : Byte) : Buttons Bool where
  left := buttonFlag b1 b2 c.btn.left
  right := buttonFlag b1 b2 c.btn.right
  down := buttonFlag b1 b2 c.btn.down
  up := buttonFlag b1 b2 c.btn.up
  plus := buttonFlag b1 b2 c.btn.plus
  minus := buttonFlag b1 b2 c.btn.minus
  home := buttonFlag b1 b2 c.btn.home
  one := buttonFlag b1 b2 c.btn.one
  two := buttonFlag b1 b2 c.btn.two
  a := buttonFlag b1 b2 c.btn.a
  b := buttonFlag b1 b2 c.btn.b

/-! ### Accelerometer -/

/-- The bit of a source (R99, R101). -/
def srcBit (b1 b2 : Byte) : BitSrc → Bool
  | .zero => false
  | .bit byte i => (btnByte b1 b2 byte).getLsbD i.val

/-- `v_a` of R99, on integers: `(zext(C_a) - 128) * 2 + (2*hi_a + lo_a)`. -/
def axisValue (b1 b2 coarse : Byte) (src : AccSrc) : Int :=
  ((coarse.toNat : Int) - 128) * 2 + (2 * (srcBit b1 b2 src.hi).toNat + (srcBit b1 b2 src.lo).toNat)

/-- `decode_accel` of R99, each component carried as `s16` (R100). -/
def decodeAccel (c : Cfg) (b1 b2 ax ay az : Byte) : Event :=
  .accel (BitVec.ofInt 16 (axisValue b1 b2 ax c.accSrc.x)) (BitVec.ofInt 16 (axisValue b1 b2 ay c.accSrc.y))
    (BitVec.ofInt 16 (axisValue b1 b2 az c.accSrc.z))

/-! ### IR -/

/-- The 2-bit field of the middle byte at `l`: M[l+1:l] (R103, R104). -/
def midField (m : Byte) (l : Fin 7) : BitVec 2 := m.extractLsb' l.val 2

/-- One slot of R103: absent if and only if both low bytes are 0xFF; else each coordinate is
{2-bit field, low byte}. -/
def irSlot (lowX lowY : Byte) (highX highY : BitVec 2) : Option IrObject :=
  if lowX = 0xFF ∧ lowY = 0xFF then none else some { x := highX ++ lowX, y := highY ++ lowY }

/-- The slot of a group's object A (R103). -/
def slotA (c : Cfg) (g : IrGroup) : Option IrObject :=
  irSlot g.xa g.ya (midField g.m c.irMid.ax) (midField g.m c.irMid.ay)

/-- The slot of a group's object B (R103). -/
def slotB (c : Cfg) (g : IrGroup) : Option IrObject :=
  irSlot g.xb g.yb (midField g.m c.irMid.bx) (midField g.m c.irMid.bY)

/-- `decode_ir` of R105: group 0's A and B, then group 1's. -/
def decodeIr (c : Cfg) (g0 g1 : IrGroup) : Event :=
  .ir { s0 := slotA c g0, s1 := slotB c g0, s2 := slotA c g1, s3 := slotB c g1 }

/-! ### Status -/

/-- The LED state: the high nibble, zero-extended (R107). -/
def decodeLeds (led : Byte) : Event := .leds ((led.extractLsb' 4 4).setWidth 8)

/-! ### Branches -/

/-- The Buttons event of a branch (R95). -/
def buttonsEvent (c : Cfg) (b1 b2 : Byte) : Event := .buttons (decodeButtons c b1 b2)

end Sys2Proof.Machine
end

