-- ==== Sys2Proof/Machine/Ops.lean ====
section
/-! DEFINITION. The operations the meanings share: the queue and log primitives of spec/00_scope.md R10, the entry
into the error state (spec/60_exceptions.md R219), the sequencer's transitions (spec/42_sequencer.md R161) and the run
of a program (R162), and the end of a read (spec/43_session.md R192). There is no return from the error state (R220). -/

namespace Sys2Proof.Machine

/-! ### Primitives -/

/-- The operation answers its caller on RD or ERR (R21, R210). -/
def State.reply (s : State) (r : Reply) : State := { s with replies := s.replies ++ [r] }

/-- An item goes out on PKT_OUT or WAIT (R21). -/
def State.emit (s : State) (it : TraceItem) : State := { s with trace := s.trace ++ [it] }

/-- `Push` of R10, for events in order: at the back of QUEUE (R25). -/
def State.push (s : State) (evs : List Event) : State := { s with queue := s.queue ++ evs }

/-- `Diag` of R10: appends a record if there is one (R28, R222). -/
def State.note (s : State) (d : Option Diag) : State := { s with diag := s.diag ++ d.toList }

/-- RUMBLE is written (R23). -/
def State.setRumble (s : State) (on : Bool) : State := { s with rumble := on }

/-- SEQ is written (R26). -/
def State.setSeq (s : State) (q : Seq) : State := { s with seq := q }

/-- The transport has answered a write: that answer is used up (R31). -/
def State.dropSendAnswer (s : State) : State := { s with sendOk := s.sendOk.tail }

/-! ### Errors -/

/-- An operation error: the operation has no effect but the answer on ERR (R210, R215, R216). -/
def State.raise (s : State) (e : Err) : State := s.reply (.error e)

/-- Entry into the error state (R219): SESSION becomes Closed(code), SEQ idle, the error goes to the caller, and
nothing else changes. -/
def State.fatal (s : State) (e : Err) : State :=
  { s with session := .closed e.code, seq := .idle }.raise e

/-- An operation on a closed session raises E_CLOSED and does nothing (R194, R215); on an open one it goes on. -/
def State.whenOpen (s : State) (k : State → State) : State :=
  match s.session with
  | .closed _ => s.raise .closed
  | .isOpen => k s

/-! ### The sequencer -/

/-- `TWrite(merge(p))` at micro-op `i` (R131, R161): on success the packet is out and the index advances by 1; on
failure the session is closed and the attempted packet's delivery is unknown (R214, R219). -/
def State.sendAt (s : State) (prog : List MicroOp) (i : Nat) (p : Packet) : State :=
  if s.sendOk.headD true then
    (s.dropSendAnswer.emit (.sent (merge s.rumble p))).setSeq (.run prog (i + 1))
  else (s.dropSendAnswer.emit (.attempted (merge s.rumble p))).fatal (.transportWrite i)

/-- One transition of the sequencer FSM, by the table of R161. -/
def State.seqStep (s : State) : State :=
  match s.seq with
  | .idle => s
  | .run prog i =>
    match prog[i]? with
    | none => (s.setSeq .idle).reply .writeOk
    | some (.wait k) => (s.emit (.wait k)).setSeq (.run prog (i + 1))
    | some (.pkt p) => s.sendAt prog i p

/-- At most `n` transitions, until SEQ is idle. -/
def State.runSeq : Nat → State → State
  | 0, s => s
  | n + 1, s =>
    match s.seq with
    | .idle => s
    | .run _ _ => State.runSeq n s.seqStep

/-- `SEQ <- Run(P, 0); run(P)` of R191 and R162: the FSM runs to its end or to a failure, one transition for each
micro-op and one for the end. -/
def State.perform (s : State) (prog : List MicroOp) : State :=
  State.runSeq (prog.length + 1) (s.setSeq (.run prog 0))

/-- `run(P)` of R162 as the rule writes it, a loop over the micro-ops that are left, `i` the index of the first of
them. Laws/Ops.lean proves that `perform` is this loop. -/
def State.runBody (s : State) (i : Nat) : List MicroOp → State
  | [] => (s.setSeq .idle).reply .writeOk
  | .wait k :: rest => (s.emit (.wait k)).runBody (i + 1) rest
  | .pkt p :: rest =>
    if s.sendOk.headD true then (s.dropSendAnswer.emit (.sent (merge s.rumble p))).runBody (i + 1) rest
    else (s.dropSendAnswer.emit (.attempted (merge s.rumble p))).fatal (.transportWrite i)

/-! ### Reads -/

/-- Pop the front of QUEUE and return it, or return none (R192). -/
def State.popReply (s : State) : State :=
  match s.queue with
  | [] => s.reply (.readOk none)
  | e :: q => { s with queue := q }.reply (.readOk (some e))

/-- What a read does once the packet is decoded: push the events in order, log the diagnostic, pop (R192). -/
def State.deliver (s : State) (evs : List Event) (d : Option Diag) : State :=
  ((s.push evs).note d).popReply

end Sys2Proof.Machine
end

