-- ==== Sys2Proof/Machine/Decoder.lean ====
section
/-! DEFINITION. The meanings of the IN rows (DEC_*): what a read does once the transport has answered with a report of
the branch (spec/43_session.md R192 with spec/40_decoder.md R95 to R111). On a closed session the read raises E_CLOSED
(R194; log 11). -/

namespace Sys2Proof.Machine

/-- The events of a report, in order, and its diagnostic: the result of `decode` (R91) for each branch; nothing for
the other rows. -/
def reportEvents (c : Cfg) : Instr → List Event × Option Diag
  | .decBtn b1 b2 => ([buttonsEvent c b1 b2], none)
  | .decBtnAcc b1 b2 ax ay az => ([buttonsEvent c b1 b2, decodeAccel c b1 b2 ax ay az], none)
  | .decBtnAccIrExt b1 b2 ax ay az g0 g1 =>
    ([buttonsEvent c b1 b2, decodeAccel c b1 b2 ax ay az, decodeIr c g0 g1], none)
  | .decBtnIrExt b1 b2 g0 g1 => ([buttonsEvent c b1 b2, decodeIr c g0 g1], none)
  | .decStatus led => ([decodeLeds led], none)
  | .decReadResult => ([], none)
  | .decAck => ([], none)
  | .decUnknown tag => ([], some (.unknownTag tag))
  | .decEmpty => ([], some .empty)
  | .mode _ => ([], none)
  | .iron _ _ => ([], none)
  | .iroff => ([], none)
  | .leds _ => ([], none)
  | .rumble _ => ([], none)
  | .spken _ => ([], none)
  | .spkmute _ => ([], none)
  | .spkdata _ => ([], none)
  | .cmdReserved _ _ => ([], none)
  | .feature _ _ => ([], none)
  | .wreg _ _ => ([], none)

/-- `decode(buf, n) -> (evs, d)` of R91 and R92. -/
def decodeReport (c : Cfg) (buf : Packet) (n : Nat) : List Event × Option Diag :=
  match decodeInput c buf n with
  | .instr i => reportEvents c i
  | .reject (.short tag k) => ([], some (.short tag k))
  | .reject _ => ([], none)

/-- DEC_BTN (R95). -/
def execDecBtn (b1 b2 : Byte) (s : State) : Host.Outcome State Fault Refusal :=
  .next (s.whenOpen fun s => s.deliver [buttonsEvent s.cfg b1 b2] none)

/-- DEC_BTN_ACC (R98): buttons, then acceleration. -/
def execDecBtnAcc (b1 b2 ax ay az : Byte) (s : State) : Host.Outcome State Fault Refusal :=
  .next (s.whenOpen fun s => s.deliver [buttonsEvent s.cfg b1 b2, decodeAccel s.cfg b1 b2 ax ay az] none)

/-- DEC_BTN_ACC_IR_EXT (R102): buttons, acceleration, then IR. -/
def execDecBtnAccIrExt (b1 b2 ax ay az : Byte) (g0 g1 : IrGroup) (s : State) : Host.Outcome State Fault Refusal :=
  .next (s.whenOpen fun s =>
    s.deliver [buttonsEvent s.cfg b1 b2, decodeAccel s.cfg b1 b2 ax ay az, decodeIr s.cfg g0 g1] none)

/-- DEC_BTN_IR_EXT (R106): buttons, then IR. -/
def execDecBtnIrExt (b1 b2 : Byte) (g0 g1 : IrGroup) (s : State) : Host.Outcome State Fault Refusal :=
  .next (s.whenOpen fun s => s.deliver [buttonsEvent s.cfg b1 b2, decodeIr s.cfg g0 g1] none)

/-- DEC_STATUS (R107): the LED event, and no change of RUMBLE or of any device state. -/
def execDecStatus (led : Byte) (s : State) : Host.Outcome State Fault Refusal :=
  .next (s.whenOpen fun s => s.deliver [decodeLeds led] none)

/-- DEC_READ_RESULT (R108): no event and no diagnostic. -/
def execDecReadResult (s : State) : Host.Outcome State Fault Refusal :=
  .next (s.whenOpen fun s => s.deliver [] none)

/-- DEC_ACK (R109): no event and no diagnostic. -/
def execDecAck (s : State) : Host.Outcome State Fault Refusal :=
  .next (s.whenOpen fun s => s.deliver [] none)

/-- DEC_UNKNOWN (R110): no event, DG_UNKNOWN_TAG. -/
def execDecUnknown (tag : Byte) (s : State) : Host.Outcome State Fault Refusal :=
  .next (s.whenOpen fun s => s.deliver [] (some (.unknownTag tag)))

/-- DEC_EMPTY (R111): no event, DG_EMPTY. -/
def execDecEmpty (s : State) : Host.Outcome State Fault Refusal :=
  .next (s.whenOpen fun s => s.deliver [] (some .empty))

/-- DEC_SHORT (R112), which has no row of the table: no event, DG_SHORT. -/
def execDecShort (tag : Byte) (n : Nat) (s : State) : State :=
  s.whenOpen fun s => s.deliver [] (some (.short tag n))

end Sys2Proof.Machine
end

