-- ==== Sys2Proof/Machine/Programs.lean ====
section
/-! DEFINITION. The micro-op programs of the commands: the pure `encode(cmd) -> prog` of spec/41_encoder.md R130 and
spec/42_sequencer.md R160. They depend on the command and on `Cfg` only (R55, R160). -/

namespace Sys2Proof.Machine

/-! ### Tables -/

/-- `itag(m)` of R138. -/
def modeTag (c : Cfg) : ReportingMode → Byte
  | .btn => c.itag.btn
  | .btnAcc => c.itag.btnAcc
  | .btnAccIrExt => c.itag.btnAccIrExt
  | .btnIrExt => c.itag.btnIrExt

/-- `P_IR_MODE_BYTE[mode]` of R167. -/
def irModeByte (c : Cfg) : IrMode → Byte
  | .basic => c.irModeByte.basic
  | .extended => c.irModeByte.extended
  | .full => c.irModeByte.full

/-- `P_SENS[sens]` of R170 and R175. -/
def sensBlocks (c : Cfg) : Sensitivity → SensBlocks
  | .level1 => c.sens.level1
  | .level2 => c.sens.level2
  | .level3 => c.sens.level3
  | .level4 => c.sens.level4
  | .level5 => c.sens.level5
  | .custom1 => c.sens.custom1
  | .custom2 => c.sens.custom2

/-! ### Internal micro-ops -/

/-- FEATURE(t, on) of R133. -/
def progFeature (c : Cfg) (t : FeatureTag) (on : Bool) : List MicroOp := [.pkt (featurePacket c t on)]

/-- WREG(addr, data) of R134: the packet and its settle wait. -/
def progWreg (c : Cfg) (addr : Nat) (data : List Byte) : List MicroOp :=
  [.pkt (wregPacket c addr data), .wait .wreg]

/-! ### Single-packet commands -/

/-- MODE of R137. -/
def progMode (c : Cfg) (m : ReportingMode) : List MicroOp :=
  [.pkt (mkpkt c [c.otag.mode, c.modeFlags, modeTag c m])]

/-- LEDS of R139: the mask in the high nibble. -/
def progLeds (c : Cfg) (mask : BitVec 4) : List MicroOp :=
  [.pkt (mkpkt c [c.otag.leds, mask.setWidth 8 <<< 4])]

/-- RUMBLE of R140: the packet is the same for on and off, the merge makes the difference. -/
def progRumble (c : Cfg) : List MicroOp := [.pkt (mkpkt c [c.otag.rumble, 0x00])]

/-- SPKEN of R141. -/
def progSpken (c : Cfg) (on : Bool) : List MicroOp := progFeature c .spkEn on

/-- SPKMUTE of R142: mute is the feature's "enable". -/
def progSpkmute (c : Cfg) (mute : Bool) : List MicroOp := progFeature c .spkMute mute

/-! ### Multi-packet commands -/

/-- SPKDATA of R172. -/
def progSpkdata (c : Cfg) (samples : List Byte) : List MicroOp :=
  [.pkt (mkpkt c ([c.otag.spkData, c.spkSub] ++ samples)), .wait .spk]

/-- IROFF of R171: camera chip first, then pixel clock. -/
def progIroff (c : Cfg) : List MicroOp := progFeature c .irCam false ++ progFeature c .irPixClk false

/-- IRON of R168, steps (a) to (h) in order. -/
def progIron (c : Cfg) (m : IrMode) (sens : Sensitivity) : List MicroOp :=
  progFeature c .irPixClk true ++
  progFeature c .irCam true ++
  progWreg c c.regIrCtrl.toNat [c.irTrigDetect] ++
  [.wait .ircal] ++
  progWreg c c.regIrSens1.toNat (sensBlocks c sens).blk1 ++
  progWreg c c.regIrSens2.toNat (sensBlocks c sens).blk2 ++
  progWreg c c.regIrMode.toNat [irModeByte c m] ++
  progWreg c c.regIrCtrl.toNat [c.irTrigEnable]

/-- `prog(cmd)` of R160 for every instruction; a report and a reserved word have no program. -/
def program (c : Cfg) : Instr → List MicroOp
  | .decBtn _ _ => []
  | .decBtnAcc _ _ _ _ _ => []
  | .decBtnAccIrExt _ _ _ _ _ _ _ => []
  | .decBtnIrExt _ _ _ _ => []
  | .decStatus _ => []
  | .decReadResult => []
  | .decAck => []
  | .decUnknown _ => []
  | .decEmpty => []
  | .mode m => progMode c m
  | .iron m sens => progIron c m sens
  | .iroff => progIroff c
  | .leds mask => progLeds c mask
  | .rumble _ => progRumble c
  | .spken on => progSpken c on
  | .spkmute mute => progSpkmute c mute
  | .spkdata samples => progSpkdata c samples
  | .cmdReserved _ _ => []
  | .feature t on => progFeature c t on
  | .wreg addr data => progWreg c addr data

end Sys2Proof.Machine
end

