-- ==== Sys2Proof/Machine/Encoder.lean ====
section
/-! DEFINITION. The meanings of the single-packet commands, of the refused command words and of the two internal
micro-ops (spec/41_encoder.md R133 to R142, spec/30_encoding.md R77, R81). Each command is one whole write
(spec/43_session.md R191): E_CLOSED on a closed session, else the program runs through the sequencer. -/

namespace Sys2Proof.Machine

/-- MODE (R137). -/
def execMode (m : ReportingMode) (s : State) : Host.Outcome State Fault Refusal :=
  .next (s.whenOpen fun s => s.perform (progMode s.cfg m))

/-- LEDS (R139). -/
def execLeds (mask : BitVec 4) (s : State) : Host.Outcome State Fault Refusal :=
  .next (s.whenOpen fun s => s.perform (progLeds s.cfg mask))

/-- RUMBLE (R140): the flag is updated first, so that the command's own packet carries the new value (D17). -/
def execRumble (on : Bool) (s : State) : Host.Outcome State Fault Refusal :=
  .next (s.whenOpen fun s => (s.setRumble on).perform (progRumble s.cfg))

/-- SPKEN (R141). -/
def execSpken (on : Bool) (s : State) : Host.Outcome State Fault Refusal :=
  .next (s.whenOpen fun s => s.perform (progSpken s.cfg on))

/-- SPKMUTE (R142). -/
def execSpkmute (mute : Bool) (s : State) : Host.Outcome State Fault Refusal :=
  .next (s.whenOpen fun s => s.perform (progSpkmute s.cfg mute))

/-- A word that is not well-formed: E_BAD_COMMAND with the word, after E_CLOSED (R77, R216, R218). -/
def State.badCommand (s : State) (word : List Byte) : State :=
  s.whenOpen fun s => s.raise (.badCommand word)

/-- CMD_RESERVED (R81): the word is refused with E_BAD_COMMAND. -/
def execCmdReserved (code : Byte) (ops : List Byte) (s : State) : Host.Outcome State Fault Refusal :=
  .next (s.badCommand (code :: ops))

/-- FEATURE (R133), run alone as a write of its one-packet program (log 12). -/
def execFeature (t : FeatureTag) (on : Bool) (s : State) : Host.Outcome State Fault Refusal :=
  .next (s.whenOpen fun s => s.perform (progFeature s.cfg t on))

/-- WREG (R134), run alone as a write of its program, packet and wait (log 12); no data byte and more than 16 follow
the formula (R135; log 13). -/
def execWreg (addr : Nat) (data : List Byte) (s : State) : Host.Outcome State Fault Refusal :=
  .next (s.whenOpen fun s => s.perform (progWreg s.cfg addr data))

end Sys2Proof.Machine
end

