-- ==== Sys2Proof/Machine/Sequencer.lean ====
section
/-! DEFINITION. The meanings of the commands whose program is longer than one packet (spec/42_sequencer.md R168, R171,
R172): each one whole write (spec/43_session.md R191). -/

namespace Sys2Proof.Machine

/-- IRON (R168). -/
def execIron (m : IrMode) (sens : Sensitivity) (s : State) : Host.Outcome State Fault Refusal :=
  .next (s.whenOpen fun s => s.perform (progIron s.cfg m sens))

/-- IROFF (R171). -/
def execIroff (s : State) : Host.Outcome State Fault Refusal :=
  .next (s.whenOpen fun s => s.perform (progIroff s.cfg))

/-- SPKDATA (R172). -/
def execSpkdata (samples : List Byte) (s : State) : Host.Outcome State Fault Refusal :=
  .next (s.whenOpen fun s => s.perform (progSpkdata s.cfg samples))

end Sys2Proof.Machine
end

