-- ==== Sys2Proof/Machine/Dispatch.lean ====
section
/-! DEFINITION. The dispatch of an instruction to its meaning, one arm per constructor. -/

namespace Sys2Proof.Machine

def exec (i : Instr) (s : State) : Host.Outcome State Fault Refusal :=
  match i with
  -- the report decoder (IN rows)
  | .decBtn b1 b2 => Sys2Proof.Machine.execDecBtn b1 b2 s
  | .decBtnAcc b1 b2 ax ay az => Sys2Proof.Machine.execDecBtnAcc b1 b2 ax ay az s
  | .decBtnAccIrExt b1 b2 ax ay az g0 g1 => Sys2Proof.Machine.execDecBtnAccIrExt b1 b2 ax ay az g0 g1 s
  | .decBtnIrExt b1 b2 g0 g1 => Sys2Proof.Machine.execDecBtnIrExt b1 b2 g0 g1 s
  | .decStatus led => Sys2Proof.Machine.execDecStatus led s
  | .decReadResult => Sys2Proof.Machine.execDecReadResult s
  | .decAck => Sys2Proof.Machine.execDecAck s
  | .decUnknown tag => Sys2Proof.Machine.execDecUnknown tag s
  | .decEmpty => Sys2Proof.Machine.execDecEmpty s
  -- the commands (CMD rows)
  | .mode m => Sys2Proof.Machine.execMode m s
  | .iron m sens => Sys2Proof.Machine.execIron m sens s
  | .iroff => Sys2Proof.Machine.execIroff s
  | .leds mask => Sys2Proof.Machine.execLeds mask s
  | .rumble on => Sys2Proof.Machine.execRumble on s
  | .spken on => Sys2Proof.Machine.execSpken on s
  | .spkmute mute => Sys2Proof.Machine.execSpkmute mute s
  | .spkdata samples => Sys2Proof.Machine.execSpkdata samples s
  | .cmdReserved code ops => Sys2Proof.Machine.execCmdReserved code ops s
  -- the internal micro-ops (OUT rows)
  | .feature t on => Sys2Proof.Machine.execFeature t on s
  | .wreg addr data => Sys2Proof.Machine.execWreg addr data s

end Sys2Proof.Machine
end

