-- ==== Sys2Proof/Machine/Session.lean ====
section
/-! DEFINITION. How the session takes its next operation (spec/43_session.md R191, R192): a write presents its word to
the command decoder, a read pops the queue or takes one transport answer. Also how the outside places a table word. -/

namespace Sys2Proof.Machine

/-- What the session does next. -/
inductive Fetched where
  /-- there is no step (R20, R197) -/
  | stuck (f : Fault)
  /-- the step is complete without a decode -/
  | done (s : State)
  /-- these bytes are to be decoded, in the state left by taking them -/
  | bytes (w : Wire) (s : State)
deriving DecidableEq, Repr

/-- A failing transport read (R213). -/
def State.readFailed (s : State) : State := s.fatal .transportRead

/-- A read on an open session (R192): a non-empty queue is popped without a transport read, otherwise exactly one
transport answer is taken. -/
def State.takeRead (s : State) : Fetched :=
  match s.queue, s.inbox with
  | _ :: _, _ => .done s.popReply
  | [], [] => .stuck .awaitingTransport
  | [], .fail :: rest => .done { s with inbox := rest }.readFailed
  | [], .packet buf n :: rest => .bytes (.input buf n) { s with inbox := rest }

/-- The session's next piece of work. While SEQ runs, its next transition and nothing else (R165). When it is idle,
the caller's next operation: a write's word goes to the command decoder, a read is taken as above, and a read on a
closed session raises E_CLOSED (R194). -/
def State.fetch (s : State) : Fetched :=
  match s.seq, s.calls with
  | .run _ _, _ => .done s.seqStep
  | .idle, [] => .stuck .awaitingCaller
  | .idle, .write word :: rest => .bytes (.command word) { s with calls := rest }
  | .idle, .read :: rest =>
    match s.session with
    | .closed _ => .done ({ s with calls := rest }.raise .closed)
    | .isOpen => State.takeRead { s with calls := rest }

/-- The bytes as E_BAD_COMMAND records them. -/
def Wire.recorded : Wire → List Byte
  | .input buf _ => buf
  | .command word => word
  | .output pkt => pkt

/-- What the session does with bytes the decoder rejects: DG_SHORT for a short report (R112), E_BAD_COMMAND for a word
that is not well-formed (R77, R216). -/
def State.rejected (s : State) (w : Wire) : DecodeReject → State
  | .short tag n => execDecShort tag n s
  | .emptyWord => s.badCommand (Wire.recorded w)
  | .badLength => s.badCommand (Wire.recorded w)
  | .badOperand => s.badCommand (Wire.recorded w)
  | .notMicroOp => s.badCommand (Wire.recorded w)

/-- The state in which the next step takes these bytes: a command word is the caller's next write; a report is the
transport's next answer and a read the caller's next operation, with QUEUE empty so that the read goes to the
transport and SESSION open so that it is allowed; a micro-op's packet is what SEQ runs next. -/
def State.place (s : State) : Wire → State
  | .command word => { s with seq := .idle, calls := .write word :: s.calls }
  | .input buf n =>
    { s with seq := .idle, session := .isOpen, queue := [], calls := .read :: s.calls, inbox := .packet buf n :: s.inbox }
  | .output pkt =>
    match decode s.cfg (.output pkt) with
    | .instr i => { s with seq := .run (program s.cfg i) 0 }
    | .reject _ => { s with seq := .run [.pkt pkt] 0 }

end Sys2Proof.Machine
end

