-- ==== Sys2Proof/Machine/Step.lean ====
section
/-! DEFINITION. One step: the session takes its next piece of work; bytes are decoded and the instruction runs. One
operation of the caller is one step (spec/20_memory.md R49; log 9). -/

namespace Sys2Proof.Machine

/-- One step of the machine. -/
def step (s : State) : Host.Outcome State Fault Refusal :=
  match s.fetch with
  | .stuck f => .fault f
  | .done t => .next t
  | .bytes w t =>
    match decode t.cfg w with
    | .instr i => exec i t
    | .reject r => .next (t.rejected w r)

/-- The state in which the next step runs the table word `w`. -/
def State.withFetchWord (s : State) (nbits w : Nat) : State := s.place (tableWire s.cfg nbits w)

end Sys2Proof.Machine
end

