-- ==== Sys2Proof/Machine/System.lean ====
section
/-! DEFINITION. `open()` and several sessions (spec/43_session.md R195, R198; log 18). A session is a `State` together
with the transport handle it was opened on; `System` holds the sessions of one caller, and each of them steps alone. -/

namespace Sys2Proof.Machine

/-- A device the transport enumerates and can open. Which devices match is the transport's own parameter (R195). -/
abbrev Handle := Nat

/-- A session and its own transport handle (R198). -/
structure OpenSession where
  handle : Handle
  core : State
deriving DecidableEq, Repr

/-- How an `open()` ends: with sessions, or with an error and no session (R195, R212). -/
inductive OpenResult where
  | sessions (ss : List OpenSession)
  | error (e : Err)
deriving DecidableEq, Repr

/-- A new session on a handle: the reset state of R240, and no packet sent. -/
def newSession (c : Cfg) (h : Handle) : OpenSession := { handle := h, core := State.opened c }

/-- `open()` with the devices that match, in enumeration order (R195): Single opens the first and fails with
E_DEVICE_NOT_FOUND if there is none (R212); Multi opens each, possibly none. -/
def openSessions (c : Cfg) (found : List Handle) : OpenResult :=
  match c.openVariant, found with
  | .single, [] => .error .deviceNotFound
  | .single, h :: _ => .sessions [newSession c h]
  | .multi, hs => .sessions (hs.map (newSession c))

/-- The sessions of one caller, and the errors `open()` put on ERR. -/
structure System where
  cfg : Cfg
  sessions : List OpenSession
  openErrors : List Err
deriving DecidableEq, Repr

/-- The caller's `open()`: new sessions join the others, which are unchanged. -/
def System.openCall (y : System) (found : List Handle) : System :=
  match openSessions y.cfg found with
  | .sessions ss => { y with sessions := y.sessions ++ ss }
  | .error e => { y with openErrors := y.openErrors ++ [e] }

/-- One step of the session at index `k`, whose next state takes its place. -/
def System.stepAt (y : System) (k : Fin y.sessions.length) : Host.Outcome System Fault Refusal :=
  match step y.sessions[k].core with
  | .next t => .next { y with sessions := y.sessions.set k { y.sessions[k] with core := t } }
  | .fault f => .fault f
  | .refused r => .refused r

end Sys2Proof.Machine
end

