-- ==== Sys2Proof/Safety.lean ====
section
/-! DEFINITION. The terms claims are made in: the invariant of a session, the states a session can reach when the
caller and the transport supply any inputs, what a program puts out, and which time stamps of a trace respect the
settle waits. -/

namespace Sys2Proof.Machine

/-! ### Well-formed values -/

/-- R100: a component is in [-256, 257]. -/
def componentOk (v : S16) : Bool := decide (-256 ≤ v.toInt) && decide (v.toInt ≤ 257)

/-- R90: the value ranges of an event; an IR coordinate is in range by its type. -/
def Event.ok : Event → Bool
  | .buttons _ => true
  | .accel x y z => componentOk x && componentOk y && componentOk z
  | .leds v => decide (v.toNat ≤ 15)
  | .ir _ => true

/-- R42, R7: a packet before the merge has `P_PKT_LEN` bytes and bit 0 of byte 1 clear. -/
def MicroOp.ok (c : Cfg) : MicroOp → Bool
  | .pkt p => decide (p.length = c.pktLen) && !(byteAt p 1).getLsbD 0
  | .wait _ => true

/-- R42: a packet on PKT_OUT has `P_PKT_LEN` bytes. -/
def TraceItem.ok (c : Cfg) : TraceItem → Bool
  | .sent p => decide (p.length = c.pktLen)
  | .attempted p => decide (p.length = c.pktLen)
  | .wait _ => true

/-! ### The invariant -/

/-- R24, R211: a closed session was closed by E_TRANSPORT, the only error that closes one. -/
def Session.ok : Session → Bool
  | .isOpen => true
  | .closed code => decide (code = .transport)

/-- R26, R27, R173: a running program has at most 13 well-formed micro-ops, and the index has not passed its end. -/
def Seq.ok (c : Cfg) : Seq → Bool
  | .idle => true
  | .run prog i => decide (prog.length ≤ 13) && decide (i ≤ prog.length) && prog.all (MicroOp.ok c)

/-- The invariant of a session: its configuration is inside the spec, SESSION and SEQ are legal, QUEUE holds at most
two well-formed events between operations (R193), and every packet put out has the fixed length. -/
structure State.Inv (s : State) : Prop where
  cfg_wf : s.cfg.wf = true
  session_ok : s.session.ok = true
  seq_ok : s.seq.ok s.cfg = true
  queue_short : s.queue.length ≤ 2
  queue_ok : s.queue.all Event.ok = true
  trace_ok : s.trace.all (TraceItem.ok s.cfg) = true

/-! ### Reachable states -/

/-- The states of a session from its `open()` on, under any operations of the caller and any answers of the transport
(R20, R31). -/
inductive Reachable : State → Prop where
  | opened (c : Cfg) (h : c.wf = true) : Reachable (State.opened c)
  | stepped (s t : State) (hs : Reachable s) (h : step s = .next t) : Reachable t
  | called (s : State) (x : Call) (hs : Reachable s) : Reachable { s with calls := s.calls ++ [x] }
  | answered (s : State) (a : ReadAnswer) (hs : Reachable s) : Reachable { s with inbox := s.inbox ++ [a] }
  | accepted (s : State) (b : Bool) (hs : Reachable s) : Reachable { s with sendOk := s.sendOk ++ [b] }

/-! ### Words and report bits -/

/-- The words R77 calls well-formed: a code of the table of R76, the code's length, every operand in its range. -/
def okCommandWord : List Byte → Prop
  | [] => False
  | code :: ops =>
    (code.toNat = 1 ∧ ∃ m, ops = [m] ∧ m.toNat ≤ 3) ∨
    (code.toNat = 2 ∧ ∃ m sens, ops = [m, sens] ∧ m.toNat ≤ 2 ∧ sens.toNat ≤ 6) ∨
    (code.toNat = 3 ∧ ops = []) ∨
    (code.toNat = 4 ∧ ∃ mask, ops = [mask] ∧ mask.toNat ≤ 15) ∨
    ((code.toNat = 5 ∨ code.toNat = 6 ∨ code.toNat = 7) ∧ ∃ on, ops = [on] ∧ on.toNat ≤ 1) ∨
    (code.toNat = 8 ∧ ops.length = 20)

/-- A bit of B1 or B2 that some button uses (R113). -/
def buttonUses (c : Cfg) (b : BtnByte) (i : Nat) : Prop :=
  ∃ e ∈ c.btn.toList, e.byte = b ∧ e.mask.getLsbD i = true

/-- A bit of B1 or B2 that some axis uses (R113). -/
def axisUses (c : Cfg) (b : BtnByte) (i : Nat) : Prop :=
  ∃ src ∈ [c.accSrc.x.hi, c.accSrc.x.lo, c.accSrc.y.hi, c.accSrc.y.lo, c.accSrc.z.hi, c.accSrc.z.lo],
    ∃ j : Fin 8, src = .bit b j ∧ j.val = i

/-! ### What a program puts out -/

/-- The trace items of micro-ops that all succeed under a rumble flag (R161). -/
def programItems (rumble : Bool) (prog : List MicroOp) : List TraceItem :=
  prog.map fun
    | .pkt p => .sent (merge rumble p)
    | .wait k => .wait k

/-- How many packets a list of micro-ops sends. -/
def packetCount (prog : List MicroOp) : Nat :=
  prog.countP fun
    | .pkt _ => true
    | .wait _ => false

/-- How many waits a list of micro-ops holds. -/
def waitCount (prog : List MicroOp) : Nat :=
  prog.countP fun
    | .pkt _ => false
    | .wait _ => true

/-- The transport accepts the next `n` packets. -/
def State.accepts (s : State) (n : Nat) : Bool := (s.sendOk.take n).all id

/-- The packet of a trace item, if it is one. -/
def TraceItem.packet? : TraceItem → Option Packet
  | .sent p => some p
  | .attempted p => some p
  | .wait _ => none

/-- A register-write packet as it goes out, from its bytes (R74). -/
def State.wregBytes (s : State) (addr : Addr24) (data : List Byte) : Packet :=
  [s.cfg.otag.wreg, (s.cfg.wregSub &&& 0xFE) ||| boolByte s.rumble, addr.extractLsb' 16 8, addr.extractLsb' 8 8,
    addr.extractLsb' 0 8, BitVec.ofNat 8 data.length] ++ data ++ List.replicate (s.cfg.pktLen - (6 + data.length)) 0

/-! ### Ends of operations, as records -/

/-- A read that got these events and this diagnostic from a report: the events are behind the queued ones, the record
is logged, and the front is answered (R192). -/
def State.afterReport (s : State) (evs : List Event) (d : Option Diag) : State :=
  { s with
    queue := (s.queue ++ evs).tail
    diag := s.diag ++ d.toList
    replies := s.replies ++ [.readOk (s.queue ++ evs).head?] }

/-- A write that put these items out, `n` of them packets that the transport accepted, and returned ok (R162). -/
def State.afterItems (s : State) (n : Nat) (items : List TraceItem) : State :=
  { s with
    seq := .idle
    sendOk := s.sendOk.drop n
    trace := s.trace ++ items
    replies := s.replies ++ [.writeOk] }

/-- A write whose transport write failed at micro-op `i`, after these items, `n` of them accepted packets; the
attempted packet's delivery is unknown (R164, R214, R219). -/
def State.afterFailure (s : State) (n i : Nat) (items : List TraceItem) (p : Packet) : State :=
  { s with
    session := .closed .transport
    seq := .idle
    sendOk := s.sendOk.drop (n + 1)
    trace := s.trace ++ items ++ [.attempted p]
    replies := s.replies ++ [.error (.transportWrite i)] }

/-- A write whose first micro-op is this packet (as it goes out, merged) and whose other items are waits: both
outcomes of the packet. -/
def State.afterOnePacket (s : State) (p : Packet) (waits : List TraceItem) : State :=
  if s.sendOk.headD true then s.afterItems 1 (.sent p :: waits) else s.afterFailure 0 0 [] p

/-- RUMBLE as a command finds it at its first packet: the rumble command sets it first (R140, R191). -/
def State.flagged (s : State) (i : Instr) : State :=
  match i with
  | .rumble on => { s with rumble := on }
  | .decBtn _ _ | .decBtnAcc _ _ _ _ _ | .decBtnAccIrExt _ _ _ _ _ _ _ | .decBtnIrExt _ _ _ _ | .decStatus _
  | .decReadResult | .decAck | .decUnknown _ | .decEmpty | .mode _ | .iron _ _ | .iroff | .leds _ | .spken _
  | .spkmute _ | .spkdata _ | .cmdReserved _ _ | .feature _ _ | .wreg _ _ => s

/-! ### Timing -/

/-- The settle duration the configuration gives for a kind of wait (R163). -/
def settleOf (c : Cfg) : WaitKind → Option Nat
  | .wreg => c.tWreg
  | .ircal => c.tIrcal
  | .spk => c.tSpk

/-- Durations that agree with every value the configuration gives. -/
def Admits (c : Cfg) (d : WaitKind → Nat) : Prop := ∀ k t, settleOf c k = some t → d k = t

/-- The least time an item takes: its duration for a wait, nothing for a packet (R161, R163). -/
def itemTime (d : WaitKind → Nat) : TraceItem → Nat
  | .sent _ => 0
  | .attempted _ => 0
  | .wait k => d k

/-- Time stamps of a trace that respect the settle waits, `ready` the instant the item before was complete: each item
is complete no earlier than its least time after the one before it; being later is always allowed (R163). -/
def RespectsWaits (d : WaitKind → Nat) (ready : Nat) : List (TraceItem × Nat) → Prop
  | [] => True
  | (it, t) :: rest => ready + itemTime d it ≤ t ∧ RespectsWaits d t rest

end Sys2Proof.Machine
end

