-- ==== Sys2Proof/Certificates/Slice0/Obligations.lean ====
section
/-! DEFINITION. The statements for the provers. Each docstring names the rule of spec/ it formalises. An OK word is a
command word that R77 calls well-formed (`okCommandWord`). -/

open Sys2Proof Sys2Proof.Machine

/-! ### Encoding -/

/-- Words written out from the spec's layouts decode to the instructions they stand for (R62, R66, R70, R74, R76). -/
def Obligations.SpecWordsDecodeToTheirInstructions : Prop :=
  decode refCfg (.input ([0x30, 0x08, 0x80] ++ List.replicate 19 0) 22) = .instr (.decBtn 0x08 0x80) ∧
  decode refCfg (.input ([0x20, 0x00, 0x00, 0x9F] ++ List.replicate 18 0) 22) = .instr (.decStatus 0x9F) ∧
  decode refCfg (.command [0x02, 0x00, 0x02]) = .instr (.iron .basic .level3) ∧
  decode refCfg (.command [0x04, 0x05]) = .instr (.leds 5#4) ∧
  decode refCfg (.output ([0x16, 0x04, 0xA2, 0x00, 0x09, 0x01, 0x01] ++ List.replicate 15 0)) =
    .instr (.wreg 0xA20009 [0x01]) ∧
  decode refCfg (.output ([0x13, 0x04] ++ List.replicate 20 0)) = .instr (.feature .irPixClk true)

/-- Decoding an encoded well-formed instruction gives it back, for every instruction, every operand and every
configuration inside the spec. -/
def Obligations.DecodeOfEncodeIsTheInstruction : Prop :=
  ∀ (c : Cfg) (i : Instr), c.wf = true → WellFormed c i = true → decode c (encode c i) = .instr i

/-- A command word decodes to an instruction if and only if it is the encoding of that instruction and the instruction
is well-formed: the words and the commands correspond one to one (R60, R76). -/
def Obligations.CommandWordsAndCommandsCorrespond : Prop :=
  ∀ (c : Cfg) (word : List Byte) (i : Instr),
    decode c (.command word) = .instr i ↔ WellFormed c i = true ∧ encode c i = .command word

/-- The decoder answers well-formed instructions only: no reserved or out-of-range encoding becomes an instruction. -/
def Obligations.DecodedInstructionsAreWellFormed : Prop :=
  ∀ (c : Cfg) (w : Wire) (i : Instr), c.wf = true → decode c w = .instr i → WellFormed c i = true

/-- R7: the egress merge erases nothing the encoder put into a micro-op's packet. -/
def Obligations.MergedMicroOpPacketsDecodeToTheirInstruction : Prop :=
  ∀ (c : Cfg) (i : Instr) (r : Bool) (p : Packet), c.wf = true → WellFormed c i = true → encode c i = .output p →
    decode c (.output (merge r p)) = .instr i

/-- R77: a word that is not OK is refused with E_BAD_COMMAND (on a closed session with E_CLOSED, which comes first), no
packet is sent and no state changes; an OK word is never refused so; and no word is FEATURE or WREG. -/
def Obligations.IllFormedCommandWordsAreRefused : Prop :=
  (∀ (s : State) (word : List Byte) (rest : List Call), s.seq = .idle → s.calls = .write word :: rest →
    ¬ okCommandWord word →
    step s = .next
      { s with
        calls := rest
        replies := s.replies ++ [.error (if s.session = .isOpen then .badCommand word else .closed)] }) ∧
  (∀ (s t : State) (word w : List Byte) (rest : List Call), s.seq = .idle → s.calls = .write word :: rest →
    okCommandWord word → step s = .next t → t.replies ≠ s.replies ++ [.error (.badCommand w)]) ∧
  ∀ (c : Cfg) (word : List Byte) (t : FeatureTag) (on : Bool) (addr : Nat) (data : List Byte),
    decode c (.command word) ≠ .instr (.feature t on) ∧ decode c (.command word) ≠ .instr (.wreg addr data)

/-- R81: CMD_RESERVED. Code 0x00 and the codes from 0x09 on are the reserved row, and the instruction answers
E_BAD_COMMAND with the word and changes nothing else. -/
def Obligations.ReservedCommandsAnswerBadCommand : Prop :=
  (∀ (c : Cfg) (code : Byte) (ops : List Byte), (code.toNat = 0 ∨ 9 ≤ code.toNat) →
    decode c (.command (code :: ops)) = .instr (.cmdReserved code ops)) ∧
  ∀ (s : State) (code : Byte) (ops : List Byte), s.session = .isOpen →
    exec (.cmdReserved code ops) s = .next { s with replies := s.replies ++ [.error (.badCommand (code :: ops))] }

/-! ### Steps -/

/-- A step runs the decoded instruction: a command word when the caller writes it, a report when a read takes it from
the transport; and while SEQ runs, a step is one transition of the sequencer. -/
def Obligations.StepRunsTheDecodedInstruction : Prop :=
  (∀ (s : State) (word : List Byte) (rest : List Call) (i : Instr), s.seq = .idle → s.calls = .write word :: rest →
    decode s.cfg (.command word) = .instr i → step s = exec i { s with calls := rest }) ∧
  (∀ (s : State) (buf : Packet) (n : Nat) (rest : List Call) (inbox : List ReadAnswer) (i : Instr), s.seq = .idle →
    s.calls = .read :: rest → s.session = .isOpen → s.queue = [] → s.inbox = .packet buf n :: inbox →
    decode s.cfg (.input buf n) = .instr i → step s = exec i { s with calls := rest, inbox := inbox }) ∧
  ∀ (s : State) (prog : List MicroOp) (i : Nat), s.seq = .run prog i → step s = .next s.seqStep

/-- A table word placed where the machine takes its next work is what the next step runs: a command word, a report, or a
micro-op's packet as the sequencer's next micro-op (the model's own placing, log 15). -/
def Obligations.PlacedTableWordIsWhatTheNextStepRuns : Prop :=
  ∀ (s : State) (nbits w : Nat) (i : Instr), decode s.cfg (tableWire s.cfg nbits w) = .instr i →
    (∀ word, tableWire s.cfg nbits w = .command word →
      step (s.withFetchWord nbits w) = exec i { s with seq := .idle }) ∧
    (∀ buf n, tableWire s.cfg nbits w = .input buf n →
      step (s.withFetchWord nbits w) = exec i { s with seq := .idle, session := .isOpen, queue := [] }) ∧
    ∀ pkt, tableWire s.cfg nbits w = .output pkt →
      step (s.withFetchWord nbits w) = .next (State.seqStep { s with seq := .run (program s.cfg i) 0 })

/-- No step refuses, and a step stops only where the spec says there is no step: no operation was started (R20), or an
open session's read with an empty queue waits for the transport; and that is not final (R197): with any answer the same
state takes a step. -/
def Obligations.StepStopsOnlyWhileWaiting : Prop :=
  (∀ (s : State) (r : Refusal), step s ≠ .refused r) ∧
  (∀ (s : State) (f : Fault), step s = .fault f ↔
    (f = .awaitingCaller ∧ s.seq = .idle ∧ s.calls = []) ∨
    (f = .awaitingTransport ∧ s.seq = .idle ∧ s.calls.head? = some .read ∧ s.session = .isOpen ∧ s.queue = [] ∧
      s.inbox = [])) ∧
  ∀ (s : State) (a : ReadAnswer), step s = .fault .awaitingTransport → ∃ t, step { s with inbox := [a] } = .next t

/-- R161: the transitions of the sequencer. A command that is accepted starts its program at index 0 and runs it; from
Run(P, i) an accepted packet and a wait advance the index by 1, a failed packet closes the session, and the end returns
ok; there is no other transition.
FEATURE and WREG run alone as commands are the model's form (log 12). -/
def Obligations.SequencerTransitionsAreTheTable : Prop :=
  (∀ (s : State) (i : Instr), s.session = .isOpen → program s.cfg i ≠ [] →
    exec i s = .next (State.runSeq ((program s.cfg i).length + 1) ((s.flagged i).setSeq (.run (program s.cfg i) 0)))) ∧
  (∀ (s : State) (prog : List MicroOp) (i : Nat) (p : Packet), s.seq = .run prog i → prog[i]? = some (.pkt p) →
    s.sendOk.headD true = true →
    step s = .next
      { s with seq := .run prog (i + 1), sendOk := s.sendOk.tail, trace := s.trace ++ [.sent (merge s.rumble p)] }) ∧
  (∀ (s : State) (prog : List MicroOp) (i : Nat) (p : Packet), s.seq = .run prog i → prog[i]? = some (.pkt p) →
    s.sendOk.headD true = false →
    step s = .next
      { s with
        session := .closed .transport
        seq := .idle
        sendOk := s.sendOk.tail
        trace := s.trace ++ [.attempted (merge s.rumble p)]
        replies := s.replies ++ [.error (.transportWrite i)] }) ∧
  (∀ (s : State) (prog : List MicroOp) (i : Nat) (k : WaitKind), s.seq = .run prog i → prog[i]? = some (.wait k) →
    step s = .next { s with seq := .run prog (i + 1), trace := s.trace ++ [.wait k] }) ∧
  (∀ (s : State) (prog : List MicroOp), s.seq = .run prog prog.length →
    step s = .next { s with seq := .idle, replies := s.replies ++ [.writeOk] }) ∧
  ∀ s : State, s.seq = .idle → s.seqStep = s

/-! ### The report decoder -/

/-- The DEC_* instructions on an open session. The events and the diagnostic of each branch are those of R95, R98, R102 and
R106 to R111, which are pure; that running the row also pushes the events, logs the diagnostic and answers the front, as
R192 does after the transport's answer, and changes nothing else, is the model's choice (log 11, DESIGN CHOICE). -/
def Obligations.ReportInstructionsDeliverTheirEvents : Prop :=
  ∀ (s : State), s.session = .isOpen →
    (∀ b1 b2, exec (.decBtn b1 b2) s = .next (s.afterReport [.buttons (decodeButtons s.cfg b1 b2)] none)) ∧
    (∀ b1 b2 ax ay az, exec (.decBtnAcc b1 b2 ax ay az) s = .next
      (s.afterReport [.buttons (decodeButtons s.cfg b1 b2), decodeAccel s.cfg b1 b2 ax ay az] none)) ∧
    (∀ b1 b2 ax ay az g0 g1, exec (.decBtnAccIrExt b1 b2 ax ay az g0 g1) s = .next
      (s.afterReport
        [.buttons (decodeButtons s.cfg b1 b2), decodeAccel s.cfg b1 b2 ax ay az, decodeIr s.cfg g0 g1] none)) ∧
    (∀ b1 b2 g0 g1, exec (.decBtnIrExt b1 b2 g0 g1) s = .next
      (s.afterReport [.buttons (decodeButtons s.cfg b1 b2), decodeIr s.cfg g0 g1] none)) ∧
    (∀ led, exec (.decStatus led) s = .next (s.afterReport [.leds (led >>> 4)] none)) ∧
    exec .decReadResult s = .next (s.afterReport [] none) ∧
    exec .decAck s = .next (s.afterReport [] none) ∧
    (∀ tag, exec (.decUnknown tag) s = .next (s.afterReport [] (some (.unknownTag tag)))) ∧
    exec .decEmpty s = .next (s.afterReport [] (some .empty))

/-- R92, R93 and R112, with the branches: a count above `P_PKT_LEN` is taken as `P_PKT_LEN`; no byte gives DG_EMPTY, an
unknown tag DG_UNKNOWN_TAG, a known tag on a short packet DG_SHORT and no event, and otherwise the branch's events. -/
def Obligations.ReportDecodeFollowsTheDispatchTable : Prop :=
  ∀ (c : Cfg) (buf : Packet) (n : Nat), c.wf = true →
    let k := min n c.pktLen
    let t := byteAt buf 0
    let buttons := Event.buttons (decodeButtons c (byteAt buf 1) (byteAt buf 2))
    let accel := decodeAccel c (byteAt buf 1) (byteAt buf 2) (byteAt buf 3) (byteAt buf 4) (byteAt buf 5)
    let short := (([], some (.short t k)) : List Event × Option Diag)
    (k = 0 → decodeReport c buf n = ([], some .empty)) ∧
    (0 < k → t ∉ c.itag.toList → decodeReport c buf n = ([], some (.unknownTag t))) ∧
    (0 < k → t = c.itag.btn → decodeReport c buf n = if k < 3 then short else ([buttons], none)) ∧
    (0 < k → t = c.itag.btnAcc → decodeReport c buf n = if k < 6 then short else ([buttons, accel], none)) ∧
    (0 < k → t = c.itag.btnAccIrExt → decodeReport c buf n =
      if k < max 6 (c.irOffAcc + 10) then short
      else ([buttons, accel, decodeIr c (groupAt buf c.irOffAcc) (groupAt buf (c.irOffAcc + 5))], none)) ∧
    (0 < k → t = c.itag.btnIrExt → decodeReport c buf n =
      if k < max 3 (c.irOffNoAcc + 10) then short
      else ([buttons, decodeIr c (groupAt buf c.irOffNoAcc) (groupAt buf (c.irOffNoAcc + 5))], none)) ∧
    (0 < k → t = c.itag.status → decodeReport c buf n =
      if k < c.statusLedByte + 1 then short else ([.leds (byteAt buf c.statusLedByte >>> 4)], none)) ∧
    (0 < k → t = c.itag.readResult → decodeReport c buf n = ([], none)) ∧
    (0 < k → t = c.itag.ack → decodeReport c buf n = ([], none))

/-- R94: the result depends only on the bytes below the clipped count, on the count and on the configuration. -/
def Obligations.ReportDecodeReadsOnlyBytesBelowTheCount : Prop :=
  ∀ (c : Cfg) (buf buf' : Packet) (n : Nat), (∀ j, j < min n c.pktLen → byteAt buf j = byteAt buf' j) →
    decodeReport c buf n = decodeReport c buf' n

/-- R113: in the four data reports, a bit of B1 or B2 that neither a button nor (in a branch with acceleration) an axis
uses, and every byte from the branch's required length on, the extension bytes among them, can change without changing
the result. -/
def Obligations.IgnoredInputBitsNeverChangeTheResult : Prop :=
  ∀ (c : Cfg) (buf buf' : Packet) (n : Nat) (br : InBranch), c.wf = true →
    (br = .btn ∨ br = .btnAcc ∨ br = .btnAccIrExt ∨ br = .btnIrExt) → byteAt buf 0 = branchTag c br →
    byteAt buf' 0 = byteAt buf 0 → (∀ j, 3 ≤ j → j < reqlen c br → byteAt buf' j = byteAt buf j) →
    (∀ b i, (buttonUses c b i ∨ ((br = .btnAcc ∨ br = .btnAccIrExt) ∧ axisUses c b i)) →
      (btnByte (byteAt buf' 1) (byteAt buf' 2) b).getLsbD i = (btnByte (byteAt buf 1) (byteAt buf 2) b).getLsbD i) →
    decodeReport c buf' n = decodeReport c buf n

/-- R96: each of the 11 flags is set if and only if its masked bit is set in its byte. -/
def Obligations.ButtonFlagsAreTheirMaskedBits : Prop :=
  ∀ (c : Cfg) (b1 b2 : Byte),
    let set := fun e : BtnSrc => btnByte b1 b2 e.byte &&& e.mask ≠ 0
    let bs := decodeButtons c b1 b2
    (bs.left = true ↔ set c.btn.left) ∧ (bs.right = true ↔ set c.btn.right) ∧ (bs.down = true ↔ set c.btn.down) ∧
    (bs.up = true ↔ set c.btn.up) ∧ (bs.plus = true ↔ set c.btn.plus) ∧ (bs.minus = true ↔ set c.btn.minus) ∧
    (bs.home = true ↔ set c.btn.home) ∧ (bs.one = true ↔ set c.btn.one) ∧ (bs.two = true ↔ set c.btn.two) ∧
    (bs.a = true ↔ set c.btn.a) ∧ (bs.b = true ↔ set c.btn.b)

/-- R97 under REFCFG: which bit of which byte each flag is. -/
def Obligations.ReferenceButtonsAreTheListedBits : Prop :=
  ∀ b1 b2 : Byte, decodeButtons refCfg b1 b2 =
    { left := b1.getLsbD 0, right := b1.getLsbD 1, down := b1.getLsbD 2, up := b1.getLsbD 3, plus := b1.getLsbD 4,
      two := b2.getLsbD 0, one := b2.getLsbD 1, b := b2.getLsbD 2, a := b2.getLsbD 3, minus := b2.getLsbD 4,
      home := b2.getLsbD 7 }

/-- R99: each component of the acceleration event, read as a signed value, is the source formula on the integers. -/
def Obligations.AccelerationIsTheFormulaWithoutWrapping : Prop :=
  ∀ (c : Cfg) (b1 b2 ax ay az : Byte), ∃ x y z : S16, decodeAccel c b1 b2 ax ay az = .accel x y z ∧
    x.toInt = ((ax.toNat : Int) - 128) * 2 +
      (2 * (srcBit b1 b2 c.accSrc.x.hi).toNat + (srcBit b1 b2 c.accSrc.x.lo).toNat) ∧
    y.toInt = ((ay.toNat : Int) - 128) * 2 +
      (2 * (srcBit b1 b2 c.accSrc.y.hi).toNat + (srcBit b1 b2 c.accSrc.y.lo).toNat) ∧
    z.toInt = ((az.toNat : Int) - 128) * 2 +
      (2 * (srcBit b1 b2 c.accSrc.z.hi).toNat + (srcBit b1 b2 c.accSrc.z.lo).toNat)

/-- R100 (which the spec derives from R99): a component lies in [-256, 257], both ends are taken, and the formula is not
injective: (C, 2) and (C+1, 0) give the same value. -/
def Obligations.AccelerationRangeIsTakenAndNotInjective : Prop :=
  (∀ (c : Cfg) (b1 b2 ax ay az : Byte), (decodeAccel c b1 b2 ax ay az).ok = true) ∧
  axisValue 0x00 0x00 0x00 { hi := .zero, lo := .zero } = -256 ∧
  axisValue 0x03 0x00 0xFF { hi := .bit .b1 0, lo := .bit .b1 1 } = 257 ∧
  ∀ coarse : Byte, coarse.toNat < 255 →
    axisValue 0x01 0x00 coarse { hi := .bit .b1 0, lo := .zero } =
      axisValue 0x00 0x00 (coarse + 1) { hi := .bit .b1 0, lo := .zero }

/-- R103 and R105: the four slots in positional order; an object is absent if and only if both of its low bytes are
0xFF, and a present one has the 10-bit coordinates 256 · field + low byte. -/
def Obligations.IrSlotsFollowPresenceAndPosition : Prop :=
  (∀ (c : Cfg) (g0 g1 : IrGroup),
    decodeIr c g0 g1 = .ir { s0 := slotA c g0, s1 := slotB c g0, s2 := slotA c g1, s3 := slotB c g1 }) ∧
  ∀ (c : Cfg) (g : IrGroup),
    (slotA c g = none ↔ g.xa = 0xFF ∧ g.ya = 0xFF) ∧ (slotB c g = none ↔ g.xb = 0xFF ∧ g.yb = 0xFF) ∧
    (∀ o, slotA c g = some o →
      o.x.toNat = 256 * (g.m.toNat / 2 ^ c.irMid.ax.val % 4) + g.xa.toNat ∧
      o.y.toNat = 256 * (g.m.toNat / 2 ^ c.irMid.ay.val % 4) + g.ya.toNat) ∧
    ∀ o, slotB c g = some o →
      o.x.toNat = 256 * (g.m.toNat / 2 ^ c.irMid.bx.val % 4) + g.xb.toNat ∧
      o.y.toNat = 256 * (g.m.toNat / 2 ^ c.irMid.bY.val % 4) + g.yb.toNat

/-- R143: a full report tagged with byte 2 of the packet that MODE m puts out goes to the branch of m. -/
def Obligations.ReportingModeRoundTrip : Prop :=
  ∀ (s t : State) (m : ReportingMode) (it : TraceItem) (p buf : Packet) (n : Nat), s.cfg.wf = true →
    s.session = .isOpen → exec (.mode m) s = .next t → t.trace = s.trace ++ [it] → it.packet? = some p →
    byteAt buf 0 = byteAt p 2 → s.cfg.pktLen ≤ n →
    match m with
    | .btn => ∃ b1 b2, decode s.cfg (.input buf n) = .instr (.decBtn b1 b2)
    | .btnAcc => ∃ b1 b2 ax ay az, decode s.cfg (.input buf n) = .instr (.decBtnAcc b1 b2 ax ay az)
    | .btnAccIrExt => ∃ b1 b2 ax ay az g0 g1,
        decode s.cfg (.input buf n) = .instr (.decBtnAccIrExt b1 b2 ax ay az g0 g1)
    | .btnIrExt => ∃ b1 b2 g0 g1, decode s.cfg (.input buf n) = .instr (.decBtnIrExt b1 b2 g0 g1)

/-! ### The command encoder -/

/-- R131: the merge overwrites bit 0 of byte 1 with the flag and leaves every other bit and byte alone. -/
def Obligations.MergeOverwritesOnlyTheRumbleBit : Prop :=
  ∀ (r : Bool) (p : Packet), 2 ≤ p.length →
    (merge r p).length = p.length ∧ (byteAt (merge r p) 1).getLsbD 0 = r ∧
    (∀ b, 1 ≤ b → (byteAt (merge r p) 1).getLsbD b = (byteAt p 1).getLsbD b) ∧
    ∀ j, j ≠ 1 → byteAt (merge r p) j = byteAt p j

/-- MODE (R137, R138): the words, the refused selectors, and the write of the one packet in an open session, with both
outcomes of the transport. -/
def Obligations.ModeCommandSendsItsPacket : Prop :=
  (∀ (c : Cfg) (sel : Byte),
    (sel.toNat = 0 → decode c (.command [0x01, sel]) = .instr (.mode .btn)) ∧
    (sel.toNat = 1 → decode c (.command [0x01, sel]) = .instr (.mode .btnAcc)) ∧
    (sel.toNat = 2 → decode c (.command [0x01, sel]) = .instr (.mode .btnAccIrExt)) ∧
    (sel.toNat = 3 → decode c (.command [0x01, sel]) = .instr (.mode .btnIrExt)) ∧
    (3 < sel.toNat → decode c (.command [0x01, sel]) = .reject .badOperand)) ∧
  ∀ (s : State) (m : ReportingMode), s.session = .isOpen →
    exec (.mode m) s = .next (s.afterOnePacket
      ([s.cfg.otag.mode, (s.cfg.modeFlags &&& 0xFE) ||| boolByte s.rumble,
        match m with
        | .btn => s.cfg.itag.btn
        | .btnAcc => s.cfg.itag.btnAcc
        | .btnAccIrExt => s.cfg.itag.btnAccIrExt
        | .btnIrExt => s.cfg.itag.btnIrExt] ++ List.replicate (s.cfg.pktLen - 3) 0) [])

/-- LEDS (R139): the words, the refused high nibbles, and the write of the one packet with the mask in the high nibble
of byte 1. -/
def Obligations.LedsCommandSendsItsPacket : Prop :=
  (∀ (c : Cfg) (b : Byte),
    (b.toNat ≤ 15 → decode c (.command [0x04, b]) = .instr (.leds (b.setWidth 4))) ∧
    (15 < b.toNat → decode c (.command [0x04, b]) = .reject .badOperand)) ∧
  ∀ (s : State) (mask : BitVec 4), s.session = .isOpen →
    exec (.leds mask) s = .next (s.afterOnePacket
      ([s.cfg.otag.leds, (mask.setWidth 8 <<< 4) ||| boolByte s.rumble] ++ List.replicate (s.cfg.pktLen - 2) 0) [])

/-- RUMBLE (R140): RUMBLE takes the operand first, its own packet carries the new value, and RUMBLE keeps it even if the
packet fails. -/
def Obligations.RumbleCommandSetsTheFlagThenSends : Prop :=
  (∀ (c : Cfg) (b : Byte),
    (b.toNat = 0 → decode c (.command [0x05, b]) = .instr (.rumble false)) ∧
    (b.toNat = 1 → decode c (.command [0x05, b]) = .instr (.rumble true)) ∧
    (1 < b.toNat → decode c (.command [0x05, b]) = .reject .badOperand)) ∧
  ∀ (s : State) (on : Bool), s.session = .isOpen →
    exec (.rumble on) s = .next (State.afterOnePacket { s with rumble := on }
      ([s.cfg.otag.rumble, boolByte on] ++ List.replicate (s.cfg.pktLen - 2) 0) [])

/-- FEATURE, SPKEN and SPKMUTE (R70, R133, R141, R142): one packet with the enable or the disable sentinel, never a raw
boolean. -/
def Obligations.FeatureTogglesSendASentinel : Prop :=
  (∀ (c : Cfg) (on : Bool),
    decode c (.command [0x06, boolByte on]) = .instr (.spken on) ∧
    decode c (.command [0x07, boolByte on]) = .instr (.spkmute on)) ∧
  ∀ (s : State) (on : Bool), s.session = .isOpen →
    let toggle := fun tag : Byte => Host.Outcome.next (s.afterOnePacket
      ([tag, ((if on then s.cfg.enable else s.cfg.disable) &&& 0xFE) ||| boolByte s.rumble] ++
        List.replicate (s.cfg.pktLen - 2) 0) [])
    exec (.spken on) s = toggle s.cfg.otag.spkEn ∧
    exec (.spkmute on) s = toggle s.cfg.otag.spkMute ∧
    exec (.feature .spkEn on) s = toggle s.cfg.otag.spkEn ∧
    exec (.feature .spkMute on) s = toggle s.cfg.otag.spkMute ∧
    exec (.feature .irPixClk on) s = toggle s.cfg.otag.irPixClk ∧
    exec (.feature .irCam on) s = toggle s.cfg.otag.irCam

/-- WREG (R74, R134, R135, R136): the packet with the big-endian address, the length capped at 16, the data left-justified
and zero-padded, then the settle wait; an address in a wider type counts modulo 2^24. -/
def Obligations.RegisterWriteSendsItsPacketThenWaits : Prop :=
  (∀ (s : State) (addr : Nat) (data : List Byte), s.session = .isOpen →
    exec (.wreg addr data) s = .next (s.afterOnePacket
      ([s.cfg.otag.wreg, (s.cfg.wregSub &&& 0xFE) ||| boolByte s.rumble, BitVec.ofNat 8 (addr / 2 ^ 16 % 256),
        BitVec.ofNat 8 (addr / 2 ^ 8 % 256), BitVec.ofNat 8 (addr % 256), BitVec.ofNat 8 (min data.length 16)] ++
        data.take 16 ++ List.replicate (s.cfg.pktLen - (6 + min data.length 16)) 0) [.wait .wreg])) ∧
  ∀ (s : State) (addr : Nat) (data : List Byte), exec (.wreg addr data) s = exec (.wreg (addr % 2 ^ 24) data) s

/-! ### The sequencer's programs -/

/-- SPKDATA (R75, R172): words of 21 bytes only, then the packet with the 20 samples in order and the settle wait. -/
def Obligations.SpeakerDataSendsItsPacketThenWaits : Prop :=
  (∀ (c : Cfg) (samples : List Byte),
    (samples.length = 20 → decode c (.command (0x08 :: samples)) = .instr (.spkdata samples)) ∧
    (samples.length ≠ 20 → decode c (.command (0x08 :: samples)) = .reject .badLength)) ∧
  ∀ (s : State) (samples : List Byte), s.session = .isOpen → samples.length = 20 →
    exec (.spkdata samples) s = .next (s.afterOnePacket
      ([s.cfg.otag.spkData, (s.cfg.spkSub &&& 0xFE) ||| boolByte s.rumble] ++ samples ++
        List.replicate (s.cfg.pktLen - 22) 0) [.wait .spk])

/-- IROFF. The two packets and their order are R171's (R249), merged by R131; what is left if the first or the second packet
fails is R164's and R214's, by the spec's decision D25. -/
def Obligations.IrOffSendsCameraThenPixelClock : Prop :=
  (∀ c : Cfg, decode c (.command [0x03]) = .instr .iroff) ∧
  ∀ (s : State), s.session = .isOpen →
    let off := fun tag : Byte => [tag, (s.cfg.disable &&& 0xFE) ||| boolByte s.rumble] ++
      List.replicate (s.cfg.pktLen - 2) (0 : Byte)
    exec .iroff s = .next
      (if s.accepts 2 then s.afterItems 2 [.sent (off s.cfg.otag.irCam), .sent (off s.cfg.otag.irPixClk)]
       else if s.accepts 1 then s.afterFailure 1 1 [.sent (off s.cfg.otag.irCam)] (off s.cfg.otag.irPixClk)
       else s.afterFailure 0 0 [] (off s.cfg.otag.irCam))

/-- IRON. Which index is which mode and which profile (R76, R167, R169; decisions D14, D15, D22, D23), and the refused
indices; the steps (a) to (h) of R168 in order, 7 packets and 6 waits, with the mode byte and the two blocks that the mode
and the profile select in the configuration (R167, R170), merged by R131, when the transport accepts all seven; and at the
first failing packet the run stops as R164 and R214 say (decision D25). -/
def Obligations.IrOnSendsTheEightStepsInOrder : Prop :=
  (∀ (c : Cfg) (a b : Byte) (m : IrMode) (sens : Sensitivity),
    decode c (.command [0x02, a, b]) = .instr (.iron m sens) ↔
      ((a.toNat = 0 ∧ m = .basic) ∨ (a.toNat = 1 ∧ m = .extended) ∨ (a.toNat = 2 ∧ m = .full)) ∧
      ((b.toNat = 0 ∧ sens = .level1) ∨ (b.toNat = 1 ∧ sens = .level2) ∨ (b.toNat = 2 ∧ sens = .level3) ∨
        (b.toNat = 3 ∧ sens = .level4) ∨ (b.toNat = 4 ∧ sens = .level5) ∨ (b.toNat = 5 ∧ sens = .custom1) ∨
        (b.toNat = 6 ∧ sens = .custom2))) ∧
  (∀ (c : Cfg) (a b : Byte), (2 < a.toNat ∨ 6 < b.toNat) → decode c (.command [0x02, a, b]) = .reject .badOperand) ∧
  (∀ (s : State) (m : IrMode) (sens : Sensitivity), s.cfg.wf = true → s.session = .isOpen → s.accepts 7 = true →
    let on := fun tag : Byte => [tag, (s.cfg.enable &&& 0xFE) ||| boolByte s.rumble] ++
      List.replicate (s.cfg.pktLen - 2) (0 : Byte)
    let resolution := match m with
      | .basic => s.cfg.irModeByte.basic
      | .extended => s.cfg.irModeByte.extended
      | .full => s.cfg.irModeByte.full
    let blocks := match sens with
      | .level1 => s.cfg.sens.level1
      | .level2 => s.cfg.sens.level2
      | .level3 => s.cfg.sens.level3
      | .level4 => s.cfg.sens.level4
      | .level5 => s.cfg.sens.level5
      | .custom1 => s.cfg.sens.custom1
      | .custom2 => s.cfg.sens.custom2
    exec (.iron m sens) s = .next (s.afterItems 7
      [.sent (on s.cfg.otag.irPixClk), .sent (on s.cfg.otag.irCam),
       .sent (s.wregBytes s.cfg.regIrCtrl [s.cfg.irTrigDetect]), .wait .wreg, .wait .ircal,
       .sent (s.wregBytes s.cfg.regIrSens1 blocks.blk1), .wait .wreg,
       .sent (s.wregBytes s.cfg.regIrSens2 blocks.blk2), .wait .wreg,
       .sent (s.wregBytes s.cfg.regIrMode [resolution]), .wait .wreg,
       .sent (s.wregBytes s.cfg.regIrCtrl [s.cfg.irTrigEnable]), .wait .wreg])) ∧
  ∀ (s : State) (m : IrMode) (sens : Sensitivity) (j : Nat) (p : Packet), s.session = .isOpen →
    let prog := program s.cfg (.iron m sens)
    let n := packetCount (prog.take j)
    prog[j]? = some (.pkt p) → s.accepts n = true → s.sendOk[n]? = some false →
    exec (.iron m sens) s = .next (s.afterFailure n j (programItems s.rumble (prog.take j)) (merge s.rumble p))

/-- R173: the number of packets, of waits and of micro-ops of every command's program. -/
def Obligations.ProgramSizesAreTheTable : Prop :=
  ∀ c : Cfg,
    let size := fun i => (packetCount (program c i), waitCount (program c i), (program c i).length)
    (∀ m, size (.mode m) = (1, 0, 1)) ∧ (∀ mask, size (.leds mask) = (1, 0, 1)) ∧
    (∀ on, size (.rumble on) = (1, 0, 1)) ∧ (∀ on, size (.spken on) = (1, 0, 1)) ∧
    (∀ mute, size (.spkmute mute) = (1, 0, 1)) ∧ (∀ samples, size (.spkdata samples) = (1, 1, 2)) ∧
    size .iroff = (2, 0, 2) ∧ (∀ m sens, size (.iron m sens) = (7, 6, 13)) ∧
    ∀ i, (program c i).length ≤ 13

/-- R42, R132, R7: every packet of a well-formed instruction's program has exactly `P_PKT_LEN` bytes and bit 0 of byte 1
clear before the merge. -/
def Obligations.ProgramPacketsAreFullAndLeaveTheRumbleBitClear : Prop :=
  ∀ (c : Cfg) (i : Instr) (p : Packet), c.wf = true → WellFormed c i = true → MicroOp.pkt p ∈ program c i →
    p.length = c.pktLen ∧ (byteAt p 1).getLsbD 0 = false

/-- R162, R191: a command whose packets the transport all accepts puts out its whole program, merged with the flag (for
RUMBLE with the new one), returns ok, and leaves everything else alone.
FEATURE and WREG run alone as commands are the model's form (log 12). -/
def Obligations.AcceptedCommandPutsOutItsWholeProgram : Prop :=
  ∀ (s : State) (i : Instr), s.session = .isOpen → program s.cfg i ≠ [] →
    s.accepts (packetCount (program s.cfg i)) = true →
    exec i s = .next ((s.flagged i).afterItems (packetCount (program s.cfg i))
      (programItems (s.flagged i).rumble (program s.cfg i)))

/-- R164, R214, R219: when the transport refuses the packet at micro-op j, the micro-ops before j have been performed, the
later ones are not, the session is closed, SEQ is idle, and RUMBLE and QUEUE keep their values.
FEATURE and WREG run alone as commands are the model's form (log 12). -/
def Obligations.RefusedPacketEndsTheCommandPrecisely : Prop :=
  ∀ (s : State) (i : Instr) (j : Nat) (p : Packet), s.session = .isOpen →
    let prog := program s.cfg i
    let n := packetCount (prog.take j)
    prog[j]? = some (.pkt p) → s.accepts n = true → s.sendOk[n]? = some false →
    exec i s = .next ((s.flagged i).afterFailure n j (programItems (s.flagged i).rumble (prog.take j))
      (merge (s.flagged i).rumble p))

/-- R32: what a command puts out depends on the configuration, on RUMBLE and on the transport's answers only, not on any
earlier command, queued event or log.
FEATURE and WREG run alone as commands are the model's form (log 12). -/
def Obligations.CommandOutputDependsOnNothingButRumble : Prop :=
  ∀ (s s' t t' : State) (i : Instr), s.cfg = s'.cfg → s.session = .isOpen → s'.session = .isOpen →
    s.rumble = s'.rumble → s.sendOk = s'.sendOk → exec i s = .next t → exec i s' = .next t' →
    ∃ new, t.trace = s.trace ++ new ∧ t'.trace = s'.trace ++ new

/-! ### Sessions -/

/-- R192: `read()`, line by line, on an idle machine: a closed session, a queued event, a failing transport read, and a
packet. -/
def Obligations.ReadFollowsItsPseudocode : Prop :=
  ∀ (s : State) (rest : List Call), s.seq = .idle → s.calls = .read :: rest →
    (∀ code, s.session = .closed code →
      step s = .next { s with calls := rest, replies := s.replies ++ [.error .closed] }) ∧
    (∀ e q, s.session = .isOpen → s.queue = e :: q →
      step s = .next { s with calls := rest, queue := q, replies := s.replies ++ [.readOk (some e)] }) ∧
    (∀ inbox, s.session = .isOpen → s.queue = [] → s.inbox = .fail :: inbox →
      step s = .next
        { s with
          calls := rest
          inbox := inbox
          session := .closed .transport
          replies := s.replies ++ [.error .transportRead] }) ∧
    ∀ buf n inbox, s.session = .isOpen → s.queue = [] → s.inbox = .packet buf n :: inbox →
      step s = .next
        { s with
          calls := rest
          inbox := inbox
          queue := (decodeReport s.cfg buf n).1.tail
          diag := s.diag ++ (decodeReport s.cfg buf n).2.toList
          replies := s.replies ++ [.readOk (decodeReport s.cfg buf n).1.head?] }

/-- R191: `write(c)` on an idle machine with an OK word: E_CLOSED on a closed session; else RUMBLE is set if it is the
rumble command, and the command's program runs. -/
def Obligations.WriteFollowsItsPseudocode : Prop :=
  ∀ (s : State) (word : List Byte) (rest : List Call), s.seq = .idle → s.calls = .write word :: rest →
    (∀ code, s.session = .closed code →
      step s = .next { s with calls := rest, replies := s.replies ++ [.error .closed] }) ∧
    (s.session = .isOpen → ¬ okCommandWord word →
      step s = .next { s with calls := rest, replies := s.replies ++ [.error (.badCommand word)] }) ∧
    (s.session = .isOpen → okCommandWord word →
      ∃ i, encode s.cfg i = .command word ∧ program s.cfg i ≠ [] ∧
        step s = .next ((State.flagged { s with calls := rest } i).runBody 0 (program s.cfg i)))

/-- An instruction on a closed session answers E_CLOSED, and nothing else changes, whatever the instruction. R194 says so of
`read` and `write` (decision D25); that a DEC_* row run alone is the rest of a read (log 11) and that FEATURE and WREG run
alone are writes (log 12) are the model's choices. -/
def Obligations.ClosedSessionRunsNoInstruction : Prop :=
  ∀ (s : State) (i : Instr) (code : ErrCode), s.session = .closed code →
    exec i s = .next { s with replies := s.replies ++ [.error .closed] }

/-- R220: Closed is absorbing. Over any number of operations, every one of them answers E_CLOSED, the code stays that of
the first fatal error, and nothing else changes: queued events stay unread, nothing is sent and nothing is taken from
the transport. -/
def Obligations.ClosedIsAbsorbing : Prop :=
  ∀ (k : Nat) (s : State) (code : ErrCode), s.session = .closed code → s.seq = .idle → k ≤ s.calls.length →
    (Sys2Proof.core.run k s : Host.Outcome State Fault Refusal) = .next
      { s with calls := s.calls.drop k, replies := s.replies ++ List.replicate k (.error .closed) }

/-- R218 (decision D31): which condition an operation reports when several apply, in its order. A write: E_CLOSED, then
E_BAD_COMMAND, then the first failing packet. A read: E_CLOSED, whatever is queued; then a non-empty queue, whatever the
transport would answer; then E_TRANSPORT. A decode: DG_EMPTY, then DG_UNKNOWN_TAG, then DG_SHORT. -/
def Obligations.FirstMatchingConditionIsReported : Prop :=
  (∀ (s : State) (word : List Byte) (rest : List Call) (code : ErrCode), s.seq = .idle →
    s.calls = .write word :: rest → s.session = .closed code →
    step s = .next { s with calls := rest, replies := s.replies ++ [.error .closed] }) ∧
  (∀ (s : State) (word : List Byte) (rest : List Call), s.seq = .idle → s.calls = .write word :: rest →
    s.session = .isOpen → ¬ okCommandWord word →
    step s = .next { s with calls := rest, replies := s.replies ++ [.error (.badCommand word)] }) ∧
  (∀ (s : State) (word : List Byte) (rest : List Call) (i : Instr) (j : Nat) (p : Packet), s.seq = .idle →
    s.calls = .write word :: rest → s.session = .isOpen → decode s.cfg (.command word) = .instr i →
    (program s.cfg i)[j]? = some (.pkt p) → s.accepts (packetCount ((program s.cfg i).take j)) = true →
    s.sendOk[packetCount ((program s.cfg i).take j)]? = some false →
    ∃ t, step s = .next t ∧ t.replies = s.replies ++ [.error (.transportWrite j)]) ∧
  (∀ (s : State) (rest : List Call) (code : ErrCode), s.seq = .idle → s.calls = .read :: rest →
    s.session = .closed code →
    step s = .next { s with calls := rest, replies := s.replies ++ [.error .closed] }) ∧
  (∀ (s : State) (e : Event) (q : List Event) (rest : List Call), s.seq = .idle → s.calls = .read :: rest →
    s.session = .isOpen → s.queue = e :: q →
    step s = .next { s with calls := rest, queue := q, replies := s.replies ++ [.readOk (some e)] }) ∧
  (∀ (s : State) (rest : List Call) (inbox : List ReadAnswer), s.seq = .idle → s.calls = .read :: rest →
    s.session = .isOpen → s.queue = [] → s.inbox = .fail :: inbox →
    ∃ t, step s = .next t ∧ t.replies = s.replies ++ [.error .transportRead]) ∧
  (∀ (c : Cfg) (buf : Packet), decodeReport c buf 0 = ([], some .empty)) ∧
  (∀ (c : Cfg) (buf : Packet) (n : Nat), 0 < min n c.pktLen → byteAt buf 0 ∉ c.itag.toList →
    decodeReport c buf n = ([], some (.unknownTag (byteAt buf 0)))) ∧
  ∀ (c : Cfg) (buf : Packet) (n : Nat) (br : InBranch), c.wf = true → 0 < min n c.pktLen →
    byteAt buf 0 = branchTag c br → min n c.pktLen < reqlen c br →
    decodeReport c buf n = ([], some (.short (byteAt buf 0) (min n c.pktLen)))

/-- R51, R192: from an empty queue, one packet that decodes to k + 1 events and k + 1 reads: the events are answered in
decode order, the queue is empty again, and the transport was read once. -/
def Obligations.ReadsReturnOnePacketsEventsInOrder : Prop :=
  ∀ (s : State) (buf : Packet) (n k : Nat) (rest : List Call) (inbox : List ReadAnswer), s.seq = .idle →
    s.session = .isOpen → s.queue = [] → s.inbox = .packet buf n :: inbox →
    (decodeReport s.cfg buf n).1.length = k + 1 → s.calls = List.replicate (k + 1) .read ++ rest →
    (Sys2Proof.core.run (k + 1) s : Host.Outcome State Fault Refusal) = .next
      { s with
        calls := rest
        inbox := inbox
        diag := s.diag ++ (decodeReport s.cfg buf n).2.toList
        replies := s.replies ++ (decodeReport s.cfg buf n).1.map fun e => .readOk (some e) }

/-- R193: one packet gives at most 3 events; the transport is read only when QUEUE is empty; then QUEUE holds that packet's
events but the first; and QUEUE never holds more than 2 events after an operation. -/
def Obligations.QueueNeverOverflows : Prop :=
  (∀ (c : Cfg) (buf : Packet) (n : Nat), (decodeReport c buf n).1.length ≤ 3) ∧
  (∀ (s t : State), step s = .next t → t.inbox ≠ s.inbox → s.queue = [] ∧
    (t.queue = [] ∨ ∃ buf n, s.inbox.head? = some (.packet buf n) ∧ t.queue = (decodeReport s.cfg buf n).1.tail)) ∧
  ∀ (s t : State), step s = .next t → s.queue.length ≤ 2 → t.queue.length ≤ 2

/-- R191, R192: a write never touches QUEUE, DIAG or the transport's read answers; a read never sends a packet, and
never touches RUMBLE or the transport's write answers. -/
def Obligations.WritesAndReadsTouchDisjointState : Prop :=
  (∀ (s t : State) (word : List Byte) (rest : List Call), s.seq = .idle → s.calls = .write word :: rest →
    step s = .next t → t.queue = s.queue ∧ t.diag = s.diag ∧ t.inbox = s.inbox ∧ t.calls = rest) ∧
  ∀ (s t : State) (rest : List Call), s.seq = .idle → s.calls = .read :: rest → step s = .next t →
    t.trace = s.trace ∧ t.rumble = s.rumble ∧ t.sendOk = s.sendOk ∧ t.calls = rest

/-- R23, R29: RUMBLE is written by the rumble command on an open session only, and then holds its operand. -/
def Obligations.RumbleIsWrittenOnlyByTheRumbleCommand : Prop :=
  ∀ (s t : State), step s = .next t →
    t.rumble = s.rumble ∨
    ∃ on rest, s.seq = .idle ∧ s.session = .isOpen ∧ s.calls = .write [0x05, boolByte on] :: rest ∧ t.rumble = on

/-- R131: byte 1 bit 0 of every packet a step puts on PKT_OUT, accepted or not, equals RUMBLE, whichever command produced
the packet; nothing put out before is changed. -/
def Obligations.EveryOutboundPacketCarriesRumble : Prop :=
  ∀ (s t : State), s.Inv → step s = .next t →
    ∃ new, t.trace = s.trace ++ new ∧
      ∀ it ∈ new, ∀ p, it.packet? = some p → (byteAt p 1).getLsbD 0 = t.rumble

/-- R24, R211, R213, R214, R219: a step of an idle machine leaves SESSION alone, or the transport has failed: an open session's
read with an empty queue took the answer `fail`, or an open session's write sent a packet, at micro-op j of its command's
program, that was the first the transport refused. Then the session is closed with E_TRANSPORT and that error is answered
(decision D25). -/
def Obligations.OnlyATransportFailureClosesTheSession : Prop :=
  ∀ (s t : State), s.seq = .idle → step s = .next t →
    t.session = s.session ∨
    (s.session = .isOpen ∧ t.session = .closed .transport ∧
      ((∃ rest inbox, s.calls = .read :: rest ∧ s.queue = [] ∧ s.inbox = .fail :: inbox ∧ t.inbox = inbox ∧
          t.replies = s.replies ++ [.error .transportRead]) ∨
       ∃ word rest i j p, s.calls = .write word :: rest ∧ decode s.cfg (.command word) = .instr i ∧
          (program s.cfg i)[j]? = some (.pkt p) ∧ s.accepts (packetCount ((program s.cfg i).take j)) = true ∧
          s.sendOk[packetCount ((program s.cfg i).take j)]? = some false ∧
          t.replies = s.replies ++ [.error (.transportWrite j)]))

/-- R26, R165, R210: an operation is one step. From an idle SEQ a step leaves SEQ idle and answers the caller exactly
once. -/
def Obligations.OneStepIsOneWholeOperation : Prop :=
  ∀ (s t : State), s.seq = .idle → step s = .next t →
    t.seq = .idle ∧ ∃ r x rest, t.replies = s.replies ++ [r] ∧ s.calls = x :: rest ∧ t.calls = rest

/-- R28: DIAG is empty in a new session, append-only, and has no influence on any other state or output: with another
log the step is the same and appends the same records. -/
def Obligations.DiagnosticsAreAppendedAndInfluenceNothing : Prop :=
  (∀ c : Cfg, (State.opened c).diag = []) ∧
  ∀ (s t : State), step s = .next t →
    ∃ new, t.diag = s.diag ++ new ∧ ∀ d, step { s with diag := d } = .next { t with diag := d ++ new }

/-- R240, R31: the configuration is fixed for the life of the session. -/
def Obligations.ConfigurationNeverChanges : Prop :=
  ∀ (s t : State), step s = .next t → t.cfg = s.cfg

/-- R240 (the values are the spec's decision D18): what reset leaves, for every configuration, and at the machine's
reset; and `open()` has sent no packet (R195, R243). -/
def Obligations.ResetStateIsTheTable : Prop :=
  (∀ c : Cfg, (State.opened c).session = .isOpen ∧ (State.opened c).rumble = false ∧ (State.opened c).queue = [] ∧
    (State.opened c).seq = .idle ∧ (State.opened c).diag = [] ∧ (State.opened c).trace = []) ∧
  State.reset.session = .isOpen ∧ State.reset.rumble = false ∧ State.reset.queue = [] ∧ State.reset.seq = .idle ∧
    State.reset.diag = []

/-- The session invariant holds of every new session whose configuration is inside the spec, and at reset. -/
def Obligations.InvariantHoldsOfNewSessions : Prop :=
  (∀ c : Cfg, c.wf = true → (State.opened c).Inv) ∧ State.reset.Inv

/-- Every step keeps the session invariant: SESSION open or closed by E_TRANSPORT, SEQ's program at most 13 well-formed
micro-ops and its index inside it, QUEUE at most two events with every component in range, every packet put out of the
fixed length. -/
def Obligations.EveryStepKeepsTheInvariant : Prop :=
  ∀ (s t : State), s.Inv → step s = .next t → t.Inv

/-- R20, R26: from `open()` on, under any operations of the caller and any answers of the transport, the invariant holds
and, between operations, SEQ is idle. -/
def Obligations.ReachableSessionsAreIdleAndMeetTheInvariant : Prop :=
  ∀ s : State, Reachable s → s.Inv ∧ s.seq = .idle

/-! ### Timing -/

/-- R174: in every timing of IRON's trace that respects the waits, the first calibration packet (item 5) is complete no
earlier than the detect packet (item 2) plus the register-write wait plus the IR calibration wait. -/
def Obligations.IrOnWaitsAdd : Prop :=
  ∀ (s t : State) (m : IrMode) (sens : Sensitivity) (d : WaitKind → Nat) (ready a b : Nat) (x y : TraceItem)
    (stamped : List (TraceItem × Nat)), s.session = .isOpen → s.accepts 7 = true → exec (.iron m sens) s = .next t →
    t.trace = s.trace ++ stamped.map Prod.fst → Admits s.cfg d → RespectsWaits d ready stamped →
    stamped[2]? = some (x, a) → stamped[5]? = some (y, b) →
    (∃ p, x = .sent p) ∧ (∃ p, y = .sent p) ∧ stamped[3]?.map Prod.fst = some (.wait .wreg) ∧
    stamped[4]?.map Prod.fst = some (.wait .ircal) ∧ a + d .wreg + d .ircal ≤ b ∧
    ∀ tw tc, s.cfg.tWreg = some tw → s.cfg.tIrcal = some tc → a + tw + tc ≤ b

/-- R163, R244 (decision D16): the wait at the end of SPKDATA, of IRON (whose last step is a register write) or of a register
write run alone still binds the first packet of the next command, in every timing of the two commands' trace that respects
the waits. A bare WREG as a write of its own is the model's form (log 12, DESIGN CHOICE), and so are the time stamps
(log 3). -/
def Obligations.TrailingWaitBindsTheNextCommand : Prop :=
  ∀ (s t u : State) (i first : Instr) (n j : Nat) (k : WaitKind) (d : WaitKind → Nat) (ready a b : Nat) (x y : TraceItem)
    (stamped : List (TraceItem × Nat)), s.session = .isOpen →
    ((∃ samples, first = .spkdata samples ∧ n = 1 ∧ j = 0 ∧ k = .spk) ∨
      (∃ m sens, first = .iron m sens ∧ n = 7 ∧ j = 11 ∧ k = .wreg) ∨
      ∃ addr data, first = .wreg addr data ∧ n = 1 ∧ j = 0 ∧ k = .wreg) →
    s.accepts n = true → exec first s = .next t → exec i t = .next u → program s.cfg i ≠ [] →
    u.trace = s.trace ++ stamped.map Prod.fst → Admits s.cfg d → RespectsWaits d ready stamped →
    stamped[j]? = some (x, a) → stamped[j + 2]? = some (y, b) →
    x.packet?.isSome = true ∧ stamped[j + 1]?.map Prod.fst = some (.wait k) ∧ y.packet?.isSome = true ∧ a + d k ≤ b ∧
    ∀ tk, settleOf s.cfg k = some tk → a + tk ≤ b

/-! ### Several sessions -/

/-- R195, R212: `open()` in the Single variant opens the first match in a reset session, or reports E_DEVICE_NOT_FOUND and
creates none; in the Multi variant it makes one reset session for each match, possibly none, and no error. -/
def Obligations.OpenCreatesResetSessions : Prop :=
  ∀ (y : System) (found : List Handle),
    (y.cfg.openVariant = .single → found = [] →
      y.openCall found = { y with openErrors := y.openErrors ++ [.deviceNotFound] }) ∧
    (∀ h rest, y.cfg.openVariant = .single → found = h :: rest →
      y.openCall found = { y with sessions := y.sessions ++ [{ handle := h, core := State.opened y.cfg }] }) ∧
    (y.cfg.openVariant = .multi →
      y.openCall found =
        { y with sessions := y.sessions ++ found.map fun h => { handle := h, core := State.opened y.cfg } })

/-- R198: sessions are independent. A step of session k is the step of its own state, whatever the others hold, and leaves
every other session as it was. -/
def Obligations.SessionsAreIndependent : Prop :=
  ∀ (y y' : System) (k : Fin y.sessions.length), y.stepAt k = .next y' →
    (∀ j : Nat, j ≠ k.val → y'.sessions[j]? = y.sessions[j]?) ∧
    (∃ x, y'.sessions[k.val]? = some x ∧ x.handle = y.sessions[k].handle ∧
      step y.sessions[k].core = .next x.core) ∧
    ∀ (z : System) (m : Fin z.sessions.length), z.sessions[m].core = y.sessions[k].core →
      ∃ z' x x', z.stepAt m = .next z' ∧ z'.sessions[m.val]? = some x ∧ y'.sessions[k.val]? = some x' ∧
        x.core = x'.core
end

