-- ==== Sys2Proof/Laws/Config.lean ====
section
/-! SUPPORT. What a well-formed configuration gives, one lemma per constraint (spec/00_scope.md R6, R7, R8). -/

namespace Sys2Proof

theorem Cfg.wf_parts {c : Cfg} (h : c.wf = true) :
    c.tagsDistinct = true ∧ c.bytesOneClear = true ∧ c.buttonsDistinct = true ∧ c.irMidDisjoint = true ∧
      c.layoutFits = true ∧ c.sizesFixed = true := by
  simpa [Cfg.wf, and_assoc] using h

theorem Cfg.wf_itags {c : Cfg} (h : c.wf = true) : c.itag.toList.Nodup := by
  have := c.wf_parts h
  simp [Cfg.tagsDistinct] at this
  exact this.1.1

theorem Cfg.wf_otags {c : Cfg} (h : c.wf = true) : c.otag.toList.Nodup := by
  have := c.wf_parts h
  simp [Cfg.tagsDistinct] at this
  exact this.1.2

theorem Cfg.wf_layout {c : Cfg} (h : c.wf = true) :
    22 ≤ c.pktLen ∧ 6 ≤ c.irOffAcc ∧ c.irOffAcc + 10 ≤ c.pktLen ∧ 3 ≤ c.irOffNoAcc ∧
      c.irOffNoAcc + 10 ≤ c.pktLen ∧ 1 ≤ c.statusLedByte ∧ c.statusLedByte < c.pktLen := by
  have := (c.wf_parts h).2.2.2.2.1
  simpa [Cfg.layoutFits, and_assoc] using this

theorem Cfg.wf_bytesOne {c : Cfg} (h : c.wf = true) :
    c.enable ≠ c.disable ∧ c.enable.getLsbD 0 = false ∧ c.disable.getLsbD 0 = false ∧
      c.modeFlags.getLsbD 0 = false ∧ c.wregSub.getLsbD 0 = false ∧ c.spkSub.getLsbD 0 = false := by
  have := (c.wf_parts h).2.1
  simpa only [Cfg.bytesOneClear, Bool.and_eq_true, decide_eq_true_eq, Bool.not_eq_true', and_assoc] using this

theorem Cfg.wf_queueCap {c : Cfg} (h : c.wf = true) : c.queueCap = 3 := by
  have := (c.wf_parts h).2.2.2.2.2
  simp only [Cfg.sizesFixed, Bool.and_eq_true, decide_eq_true_eq] at this
  exact this.2

/-- Every profile's blocks have 9 and 2 bytes (R8). -/
theorem Cfg.wf_sens {c : Cfg} (h : c.wf = true) (e : SensBlocks) (he : e ∈ c.sens.toList) :
    e.blk1.length = 9 ∧ e.blk2.length = 2 := by
  have := (c.wf_parts h).2.2.2.2.2
  simp only [Cfg.sizesFixed, Bool.and_eq_true, decide_eq_true_eq, List.all_eq_true] at this
  exact this.1 e he

/-- REFCFG is inside the spec. -/
theorem refCfg_wf : refCfg.wf = true := by decide

/-- A byte with bit 0 clear is unchanged when the rumble bit is taken out. -/
theorem withoutRumble_of_clear (b : Byte) (h : b.getLsbD 0 = false) : withoutRumble b = b := by
  revert h
  revert b
  decide

end Sys2Proof
end

