-- ==== Sys2Proof/Laws/Decode.lean ====
section
/-! SUPPORT. Small lemmas about packets, tags and operand bytes (Sys2Proof/Decode.lean). -/

namespace Sys2Proof

/-! ### Packets -/

@[simp] theorem length_zeros (n : Nat) : (zeros n).length = n := by simp [zeros]

@[simp] theorem byteAt_zeros (n j : Nat) : byteAt (zeros n) j = 0 := by
  unfold byteAt zeros
  by_cases h : j < n <;> simp [List.getD_eq_getElem?_getD, h]

theorem length_mkpkt (c : Cfg) (bs : List Byte) (h : bs.length ≤ c.pktLen) : (mkpkt c bs).length = c.pktLen := by
  simp [mkpkt]
  omega

/-- Inside the built bytes a packet holds them. -/
theorem byteAt_append_left (xs ys : List Byte) (j : Nat) (h : j < xs.length) :
    byteAt (xs ++ ys) j = byteAt xs j := by
  simp [byteAt, List.getD_eq_getElem?_getD, List.getElem?_append_left h]

/-- Past the first part a packet holds the second. -/
theorem byteAt_append_right (xs ys : List Byte) (j : Nat) (h : xs.length ≤ j) :
    byteAt (xs ++ ys) j = byteAt ys (j - xs.length) := by
  simp [byteAt, List.getD_eq_getElem?_getD, List.getElem?_append_right h]

theorem byteAt_mkpkt (c : Cfg) (bs : List Byte) (j : Nat) (h : j < bs.length) :
    byteAt (mkpkt c bs) j = byteAt bs j := byteAt_append_left bs _ j h

/-- Unused trailing bytes are zero (R132). -/
theorem byteAt_mkpkt_zero (c : Cfg) (bs : List Byte) (j : Nat) (h : bs.length ≤ j) : byteAt (mkpkt c bs) j = 0 := by
  rw [mkpkt, byteAt_append_right bs _ j h, byteAt_zeros]

theorem allZero_zeros (n : Nat) : allZero (zeros n) = true := by simp [allZero, zeros]

/-- The group written at the end of the first part is the group read there (R68). -/
theorem groupAt_bytes (xs ys : List Byte) (g : IrGroup) (off : Nat) (h : xs.length = off) :
    groupAt (xs ++ (g.bytes ++ ys)) off = g := by
  subst h
  simp [groupAt, byteAt, IrGroup.bytes, List.getD_eq_getElem?_getD]

/-! ### Tags -/

/-- A branch's tag routes to the branch (R7, R78). -/
theorem lookupTag_branchTag {c : Cfg} (h : c.wf = true) (br : InBranch) : lookupTag c (branchTag c br) = some br := by
  have hn := c.wf_itags h
  simp only [InTags.toList, List.nodup_cons, List.mem_cons, List.not_mem_nil, or_false, not_or] at hn
  cases br <;> simp [lookupTag, branchTag, *, eq_comm]

/-- A tag has no branch if and only if it is none of the known tags (R78, R80). -/
theorem lookupTag_eq_none (c : Cfg) (t : Byte) : lookupTag c t = none ↔ c.itag.toList.contains t = false := by
  unfold lookupTag
  simp only [InTags.toList, List.contains_cons, List.contains_nil, Bool.or_false, Bool.or_eq_false_iff,
    beq_eq_false_iff_ne]
  repeat' split
  all_goals simp_all

/-- The branch found for a tag has that tag. -/
theorem branchTag_of_lookupTag {c : Cfg} {t : Byte} {br : InBranch} (h : lookupTag c t = some br) :
    branchTag c br = t := by
  unfold lookupTag at h
  repeat' split at h
  all_goals simp_all [branchTag]
  all_goals (subst h; rfl)

/-- A feature tag's byte is looked up as that tag (R7). -/
theorem lookupFeature_featureTagByte {c : Cfg} (h : c.wf = true) (t : FeatureTag) :
    lookupFeature c (featureTagByte c t) = some t ∧ featureTagByte c t ≠ c.otag.wreg := by
  have hn := c.wf_otags h
  simp only [OutTags.toList, List.nodup_cons, List.mem_cons, List.not_mem_nil, or_false, not_or] at hn
  cases t <;> simp [lookupFeature, featureTagByte, *, eq_comm]

/-! ### Operand bytes of command words -/

@[simp] theorem modeOfByte_modeByte (m : ReportingMode) : modeOfByte (modeByte m) = some m := by cases m <;> rfl

@[simp] theorem irModeOfByte_irModeIndex (m : IrMode) : irModeOfByte (irModeIndex m) = some m := by cases m <;> rfl

@[simp] theorem sensOfByte_sensIndex (x : Sensitivity) : sensOfByte (sensIndex x) = some x := by cases x <;> rfl

@[simp] theorem boolOfByte_boolByte (b : Bool) : boolOfByte (boolByte b) = some b := by cases b <;> rfl

theorem maskOfByte_zeroExtend (mask : BitVec 4) : maskOfByte (mask.setWidth 8) = some mask := by
  revert mask
  decide

end Sys2Proof
end

