-- ==== Sys2Proof/Laws/State.lean ====
section
/-! SUPPORT. One lemma per field of State and update of Machine/Ops.lean: what the field holds after the update. -/

namespace Sys2Proof.Machine

/-! ### reply -/

@[simp] theorem State.reply_cfg (s : State) (r : Reply) : (s.reply r).cfg = s.cfg := rfl
@[simp] theorem State.reply_session (s : State) (r : Reply) : (s.reply r).session = s.session := rfl
@[simp] theorem State.reply_rumble (s : State) (r : Reply) : (s.reply r).rumble = s.rumble := rfl
@[simp] theorem State.reply_queue (s : State) (r : Reply) : (s.reply r).queue = s.queue := rfl
@[simp] theorem State.reply_seq (s : State) (r : Reply) : (s.reply r).seq = s.seq := rfl
@[simp] theorem State.reply_diag (s : State) (r : Reply) : (s.reply r).diag = s.diag := rfl
@[simp] theorem State.reply_calls (s : State) (r : Reply) : (s.reply r).calls = s.calls := rfl
@[simp] theorem State.reply_inbox (s : State) (r : Reply) : (s.reply r).inbox = s.inbox := rfl
@[simp] theorem State.reply_sendOk (s : State) (r : Reply) : (s.reply r).sendOk = s.sendOk := rfl
@[simp] theorem State.reply_trace (s : State) (r : Reply) : (s.reply r).trace = s.trace := rfl
@[simp] theorem State.reply_replies (s : State) (r : Reply) : (s.reply r).replies = s.replies ++ [r] := rfl

/-! ### emit -/

@[simp] theorem State.emit_cfg (s : State) (it : TraceItem) : (s.emit it).cfg = s.cfg := rfl
@[simp] theorem State.emit_session (s : State) (it : TraceItem) : (s.emit it).session = s.session := rfl
@[simp] theorem State.emit_rumble (s : State) (it : TraceItem) : (s.emit it).rumble = s.rumble := rfl
@[simp] theorem State.emit_queue (s : State) (it : TraceItem) : (s.emit it).queue = s.queue := rfl
@[simp] theorem State.emit_seq (s : State) (it : TraceItem) : (s.emit it).seq = s.seq := rfl
@[simp] theorem State.emit_diag (s : State) (it : TraceItem) : (s.emit it).diag = s.diag := rfl
@[simp] theorem State.emit_calls (s : State) (it : TraceItem) : (s.emit it).calls = s.calls := rfl
@[simp] theorem State.emit_inbox (s : State) (it : TraceItem) : (s.emit it).inbox = s.inbox := rfl
@[simp] theorem State.emit_sendOk (s : State) (it : TraceItem) : (s.emit it).sendOk = s.sendOk := rfl
@[simp] theorem State.emit_trace (s : State) (it : TraceItem) : (s.emit it).trace = s.trace ++ [it] := rfl
@[simp] theorem State.emit_replies (s : State) (it : TraceItem) : (s.emit it).replies = s.replies := rfl

/-! ### push -/

@[simp] theorem State.push_cfg (s : State) (evs : List Event) : (s.push evs).cfg = s.cfg := rfl
@[simp] theorem State.push_session (s : State) (evs : List Event) : (s.push evs).session = s.session := rfl
@[simp] theorem State.push_rumble (s : State) (evs : List Event) : (s.push evs).rumble = s.rumble := rfl
@[simp] theorem State.push_queue (s : State) (evs : List Event) : (s.push evs).queue = s.queue ++ evs := rfl
@[simp] theorem State.push_seq (s : State) (evs : List Event) : (s.push evs).seq = s.seq := rfl
@[simp] theorem State.push_diag (s : State) (evs : List Event) : (s.push evs).diag = s.diag := rfl
@[simp] theorem State.push_calls (s : State) (evs : List Event) : (s.push evs).calls = s.calls := rfl
@[simp] theorem State.push_inbox (s : State) (evs : List Event) : (s.push evs).inbox = s.inbox := rfl
@[simp] theorem State.push_sendOk (s : State) (evs : List Event) : (s.push evs).sendOk = s.sendOk := rfl
@[simp] theorem State.push_trace (s : State) (evs : List Event) : (s.push evs).trace = s.trace := rfl
@[simp] theorem State.push_replies (s : State) (evs : List Event) : (s.push evs).replies = s.replies := rfl

/-! ### note -/

@[simp] theorem State.note_cfg (s : State) (d : Option Diag) : (s.note d).cfg = s.cfg := rfl
@[simp] theorem State.note_session (s : State) (d : Option Diag) : (s.note d).session = s.session := rfl
@[simp] theorem State.note_rumble (s : State) (d : Option Diag) : (s.note d).rumble = s.rumble := rfl
@[simp] theorem State.note_queue (s : State) (d : Option Diag) : (s.note d).queue = s.queue := rfl
@[simp] theorem State.note_seq (s : State) (d : Option Diag) : (s.note d).seq = s.seq := rfl
@[simp] theorem State.note_diag (s : State) (d : Option Diag) : (s.note d).diag = s.diag ++ d.toList := rfl
@[simp] theorem State.note_calls (s : State) (d : Option Diag) : (s.note d).calls = s.calls := rfl
@[simp] theorem State.note_inbox (s : State) (d : Option Diag) : (s.note d).inbox = s.inbox := rfl
@[simp] theorem State.note_sendOk (s : State) (d : Option Diag) : (s.note d).sendOk = s.sendOk := rfl
@[simp] theorem State.note_trace (s : State) (d : Option Diag) : (s.note d).trace = s.trace := rfl
@[simp] theorem State.note_replies (s : State) (d : Option Diag) : (s.note d).replies = s.replies := rfl

/-! ### setRumble -/

@[simp] theorem State.setRumble_cfg (s : State) (on : Bool) : (s.setRumble on).cfg = s.cfg := rfl
@[simp] theorem State.setRumble_session (s : State) (on : Bool) : (s.setRumble on).session = s.session := rfl
@[simp] theorem State.setRumble_rumble (s : State) (on : Bool) : (s.setRumble on).rumble = on := rfl
@[simp] theorem State.setRumble_queue (s : State) (on : Bool) : (s.setRumble on).queue = s.queue := rfl
@[simp] theorem State.setRumble_seq (s : State) (on : Bool) : (s.setRumble on).seq = s.seq := rfl
@[simp] theorem State.setRumble_diag (s : State) (on : Bool) : (s.setRumble on).diag = s.diag := rfl
@[simp] theorem State.setRumble_calls (s : State) (on : Bool) : (s.setRumble on).calls = s.calls := rfl
@[simp] theorem State.setRumble_inbox (s : State) (on : Bool) : (s.setRumble on).inbox = s.inbox := rfl
@[simp] theorem State.setRumble_sendOk (s : State) (on : Bool) : (s.setRumble on).sendOk = s.sendOk := rfl
@[simp] theorem State.setRumble_trace (s : State) (on : Bool) : (s.setRumble on).trace = s.trace := rfl
@[simp] theorem State.setRumble_replies (s : State) (on : Bool) : (s.setRumble on).replies = s.replies := rfl

/-! ### setSeq -/

@[simp] theorem State.setSeq_cfg (s : State) (q : Seq) : (s.setSeq q).cfg = s.cfg := rfl
@[simp] theorem State.setSeq_session (s : State) (q : Seq) : (s.setSeq q).session = s.session := rfl
@[simp] theorem State.setSeq_rumble (s : State) (q : Seq) : (s.setSeq q).rumble = s.rumble := rfl
@[simp] theorem State.setSeq_queue (s : State) (q : Seq) : (s.setSeq q).queue = s.queue := rfl
@[simp] theorem State.setSeq_seq (s : State) (q : Seq) : (s.setSeq q).seq = q := rfl
@[simp] theorem State.setSeq_diag (s : State) (q : Seq) : (s.setSeq q).diag = s.diag := rfl
@[simp] theorem State.setSeq_calls (s : State) (q : Seq) : (s.setSeq q).calls = s.calls := rfl
@[simp] theorem State.setSeq_inbox (s : State) (q : Seq) : (s.setSeq q).inbox = s.inbox := rfl
@[simp] theorem State.setSeq_sendOk (s : State) (q : Seq) : (s.setSeq q).sendOk = s.sendOk := rfl
@[simp] theorem State.setSeq_trace (s : State) (q : Seq) : (s.setSeq q).trace = s.trace := rfl
@[simp] theorem State.setSeq_replies (s : State) (q : Seq) : (s.setSeq q).replies = s.replies := rfl

/-! ### dropSendAnswer -/

@[simp] theorem State.dropSendAnswer_cfg (s : State) : (s.dropSendAnswer).cfg = s.cfg := rfl
@[simp] theorem State.dropSendAnswer_session (s : State) : (s.dropSendAnswer).session = s.session := rfl
@[simp] theorem State.dropSendAnswer_rumble (s : State) : (s.dropSendAnswer).rumble = s.rumble := rfl
@[simp] theorem State.dropSendAnswer_queue (s : State) : (s.dropSendAnswer).queue = s.queue := rfl
@[simp] theorem State.dropSendAnswer_seq (s : State) : (s.dropSendAnswer).seq = s.seq := rfl
@[simp] theorem State.dropSendAnswer_diag (s : State) : (s.dropSendAnswer).diag = s.diag := rfl
@[simp] theorem State.dropSendAnswer_calls (s : State) : (s.dropSendAnswer).calls = s.calls := rfl
@[simp] theorem State.dropSendAnswer_inbox (s : State) : (s.dropSendAnswer).inbox = s.inbox := rfl
@[simp] theorem State.dropSendAnswer_sendOk (s : State) : (s.dropSendAnswer).sendOk = s.sendOk.tail := rfl
@[simp] theorem State.dropSendAnswer_trace (s : State) : (s.dropSendAnswer).trace = s.trace := rfl
@[simp] theorem State.dropSendAnswer_replies (s : State) : (s.dropSendAnswer).replies = s.replies := rfl

/-! ### raise -/

@[simp] theorem State.raise_cfg (s : State) (e : Err) : (s.raise e).cfg = s.cfg := rfl
@[simp] theorem State.raise_session (s : State) (e : Err) : (s.raise e).session = s.session := rfl
@[simp] theorem State.raise_rumble (s : State) (e : Err) : (s.raise e).rumble = s.rumble := rfl
@[simp] theorem State.raise_queue (s : State) (e : Err) : (s.raise e).queue = s.queue := rfl
@[simp] theorem State.raise_seq (s : State) (e : Err) : (s.raise e).seq = s.seq := rfl
@[simp] theorem State.raise_diag (s : State) (e : Err) : (s.raise e).diag = s.diag := rfl
@[simp] theorem State.raise_calls (s : State) (e : Err) : (s.raise e).calls = s.calls := rfl
@[simp] theorem State.raise_inbox (s : State) (e : Err) : (s.raise e).inbox = s.inbox := rfl
@[simp] theorem State.raise_sendOk (s : State) (e : Err) : (s.raise e).sendOk = s.sendOk := rfl
@[simp] theorem State.raise_trace (s : State) (e : Err) : (s.raise e).trace = s.trace := rfl
@[simp] theorem State.raise_replies (s : State) (e : Err) : (s.raise e).replies = s.replies ++ [.error e] := rfl

/-! ### fatal -/

@[simp] theorem State.fatal_cfg (s : State) (e : Err) : (s.fatal e).cfg = s.cfg := rfl
@[simp] theorem State.fatal_session (s : State) (e : Err) : (s.fatal e).session = .closed e.code := rfl
@[simp] theorem State.fatal_rumble (s : State) (e : Err) : (s.fatal e).rumble = s.rumble := rfl
@[simp] theorem State.fatal_queue (s : State) (e : Err) : (s.fatal e).queue = s.queue := rfl
@[simp] theorem State.fatal_seq (s : State) (e : Err) : (s.fatal e).seq = .idle := rfl
@[simp] theorem State.fatal_diag (s : State) (e : Err) : (s.fatal e).diag = s.diag := rfl
@[simp] theorem State.fatal_calls (s : State) (e : Err) : (s.fatal e).calls = s.calls := rfl
@[simp] theorem State.fatal_inbox (s : State) (e : Err) : (s.fatal e).inbox = s.inbox := rfl
@[simp] theorem State.fatal_sendOk (s : State) (e : Err) : (s.fatal e).sendOk = s.sendOk := rfl
@[simp] theorem State.fatal_trace (s : State) (e : Err) : (s.fatal e).trace = s.trace := rfl
@[simp] theorem State.fatal_replies (s : State) (e : Err) : (s.fatal e).replies = s.replies ++ [.error e] := rfl

end Sys2Proof.Machine
end

