-- ==== Sys2Proof/Laws/Ops.lean ====
section
/-! SUPPORT. One specification lemma per shared operation of Machine/Ops.lean. -/

namespace Sys2Proof.Machine

/-! ### Sessions -/

@[simp] theorem State.whenOpen_isOpen (s : State) (k : State → State) (h : s.session = .isOpen) :
    s.whenOpen k = k s := by
  simp [State.whenOpen, h]

@[simp] theorem State.whenOpen_closed (s : State) (k : State → State) (code : ErrCode)
    (h : s.session = .closed code) : s.whenOpen k = s.raise .closed := by
  simp [State.whenOpen, h]

/-- An operation either goes on in an open session or raises E_CLOSED in a closed one. -/
theorem State.whenOpen_cases (s : State) (k : State → State) :
    (s.session = .isOpen ∧ s.whenOpen k = k s) ∨
      ∃ code, s.session = .closed code ∧ s.whenOpen k = s.raise .closed := by
  cases h : s.session with
  | isOpen => exact .inl ⟨rfl, s.whenOpen_isOpen k h⟩
  | closed code => exact .inr ⟨code, rfl, s.whenOpen_closed k code h⟩

/-! ### The sequencer -/

/-- Everything one transition of a running sequencer can do (R161). -/
theorem State.seqStep_cases (s : State) (prog : List MicroOp) (i : Nat) (h : s.seq = .run prog i) :
    (prog[i]? = none ∧ s.seqStep = (s.setSeq .idle).reply .writeOk) ∨
    (∃ k, prog[i]? = some (.wait k) ∧ s.seqStep = (s.emit (.wait k)).setSeq (.run prog (i + 1))) ∨
    (∃ p, prog[i]? = some (.pkt p) ∧ s.sendOk.headD true = true ∧
      s.seqStep = (s.dropSendAnswer.emit (.sent (merge s.rumble p))).setSeq (.run prog (i + 1))) ∨
    ∃ p, prog[i]? = some (.pkt p) ∧ s.sendOk.headD true = false ∧
      s.seqStep = (s.dropSendAnswer.emit (.attempted (merge s.rumble p))).fatal (.transportWrite i) := by
  unfold State.seqStep
  rw [h]
  cases hp : prog[i]? with
  | none => exact .inl ⟨rfl, by simp [hp]⟩
  | some m =>
    cases m with
    | wait k => exact .inr (.inl ⟨k, rfl, by simp [hp]⟩)
    | pkt p =>
      cases ha : s.sendOk.headD true with
      | true => exact .inr (.inr (.inl ⟨p, rfl, rfl, by simp only [hp, State.sendAt, ha, if_true]⟩))
      | false =>
        exact .inr (.inr (.inr ⟨p, rfl, rfl, by simp only [hp, State.sendAt, ha, Bool.false_eq_true, if_false]⟩))

@[simp] theorem State.runSeq_idle (n : Nat) (s : State) (h : s.seq = .idle) : State.runSeq n s = s := by
  cases n with
  | zero => rfl
  | succ n => simp [State.runSeq, h]

theorem State.runSeq_run (n : Nat) (s : State) (prog : List MicroOp) (i : Nat) (h : s.seq = .run prog i) :
    State.runSeq (n + 1) s = State.runSeq n s.seqStep := by
  simp [State.runSeq, h]

/-- SEQ is overwritten by everything the loop does, so its value before does not matter. -/
theorem State.runBody_setSeq (s : State) (q : Seq) (i : Nat) (rest : List MicroOp) :
    (s.setSeq q).runBody i rest = s.runBody i rest := by
  induction rest generalizing s i with
  | nil => rfl
  | cons m rest ih =>
    cases m with
    | wait k => exact ih (s.emit (.wait k)) (i + 1)
    | pkt p =>
      cases h : s.sendOk.headD true with
      | true =>
        simp only [State.runBody, State.setSeq_sendOk, State.setSeq_rumble, h, if_true]
        exact ih (s.dropSendAnswer.emit (.sent (merge s.rumble p))) (i + 1)
      | false =>
        simp only [State.runBody, State.setSeq_sendOk, State.setSeq_rumble, h, Bool.false_eq_true, if_false]
        rfl

/-- From index `i` on, the FSM does what the loop does on the micro-ops that are left. -/
theorem State.runSeq_eq_runBody (prog : List MicroOp) (n i : Nat) (s : State) (hs : s.seq = .run prog i)
    (hi : i ≤ prog.length) (hn : prog.length < n + i) : State.runSeq n s = s.runBody i (prog.drop i) := by
  induction n generalizing i s with
  | zero => omega
  | succ n ih =>
    rw [State.runSeq_run n s prog i hs]
    rcases s.seqStep_cases prog i hs with ⟨hp, hst⟩ | ⟨k, hp, hst⟩ | ⟨p, hp, ha, hst⟩ | ⟨p, hp, ha, hst⟩
    · have hlen : prog.length ≤ i := by simpa using hp
      rw [hst, State.runSeq_idle _ _ rfl, List.drop_eq_nil_of_le hlen]
      rfl
    · have hlt : i < prog.length := (List.getElem?_eq_some_iff.mp hp).1
      have hd : prog.drop i = .wait k :: prog.drop (i + 1) := by
        rw [List.drop_eq_getElem_cons hlt, (List.getElem?_eq_some_iff.mp hp).2]
      rw [hst, ih (i + 1) _ rfl hlt (by omega), hd, State.runBody_setSeq]
      rfl
    · have hlt : i < prog.length := (List.getElem?_eq_some_iff.mp hp).1
      have hd : prog.drop i = .pkt p :: prog.drop (i + 1) := by
        rw [List.drop_eq_getElem_cons hlt, (List.getElem?_eq_some_iff.mp hp).2]
      rw [hst, ih (i + 1) _ rfl hlt (by omega), hd, State.runBody_setSeq]
      simp only [State.runBody, ha, if_true]
    · have hlt : i < prog.length := (List.getElem?_eq_some_iff.mp hp).1
      have hd : prog.drop i = .pkt p :: prog.drop (i + 1) := by
        rw [List.drop_eq_getElem_cons hlt, (List.getElem?_eq_some_iff.mp hp).2]
      rw [hst, State.runSeq_idle _ _ rfl, hd]
      simp only [State.runBody, ha, Bool.false_eq_true, if_false]

/-- The specification of `perform`: the FSM of R161, run to its end, is the loop of R162. -/
theorem State.perform_eq_runBody (s : State) (prog : List MicroOp) : s.perform prog = s.runBody 0 prog := by
  rw [State.perform, State.runSeq_eq_runBody prog _ 0 _ rfl (Nat.zero_le _) (by omega), List.drop_zero,
    State.runBody_setSeq]

/-- What the loop leaves alone, and where it ends: SEQ is idle, and only SESSION, the transport's answers, the trace
and the replies may differ. -/
theorem State.runBody_frame (s : State) (i : Nat) (rest : List MicroOp) :
    (s.runBody i rest).cfg = s.cfg ∧ (s.runBody i rest).rumble = s.rumble ∧ (s.runBody i rest).queue = s.queue ∧
      (s.runBody i rest).seq = .idle ∧ (s.runBody i rest).diag = s.diag ∧ (s.runBody i rest).calls = s.calls ∧
      (s.runBody i rest).inbox = s.inbox := by
  induction rest generalizing s i with
  | nil => simp [State.runBody]
  | cons m rest ih =>
    cases m with
    | wait k => exact ih (s.emit (.wait k)) (i + 1)
    | pkt p =>
      cases h : s.sendOk.headD true with
      | true =>
        simp only [State.runBody, h, if_true]
        simpa using ih (s.dropSendAnswer.emit (.sent (merge s.rumble p))) (i + 1)
      | false => simp only [State.runBody, h, Bool.false_eq_true, if_false]; simp

/-! ### Reads -/

/-- The specification of `popReply` (R192). -/
theorem State.popReply_eq (s : State) :
    s.popReply = { s with queue := s.queue.tail, replies := s.replies ++ [.readOk s.queue.head?] } := by
  unfold State.popReply
  split <;> rename_i h <;> simp [State.reply, h]

/-- The specification of `deliver` (R192): the events go behind the queued ones, and the front is answered. -/
theorem State.deliver_eq (s : State) (evs : List Event) (d : Option Diag) :
    s.deliver evs d =
      { s with
        queue := (s.queue ++ evs).tail
        diag := s.diag ++ d.toList
        replies := s.replies ++ [.readOk (s.queue ++ evs).head?] } := by
  rw [State.deliver, State.popReply_eq]
  rfl

end Sys2Proof.Machine
end

