-- ==== Sys2Proof/Laws/PerInstr.lean ====
section
/-! SUPPORT. The per-instruction family EncodeFits: the encoding of a well-formed instruction has the size its format
fixes (spec/30_encoding.md R61, R76, spec/20_memory.md R42). -/

namespace Sys2Proof

/-- The size a format fixes: a report is a full buffer with a count inside it, a command word has its code's length,
or its code is reserved, and a micro-op's packet is full. -/
def Wire.fits (c : Cfg) : Wire → Prop
  | .input buf n => buf.length = c.pktLen ∧ n ≤ c.pktLen
  | .command word => ∃ code ops, word = code :: ops ∧
      (commandLength code = some word.length ∨ commandLength code = none)
  | .output pkt => pkt.length = c.pktLen

theorem inputReport_fits (c : Cfg) (bs : List Byte) (h : bs.length ≤ c.pktLen) : (inputReport c bs).fits c :=
  ⟨length_mkpkt c bs h, Nat.le_refl _⟩

/-- A reserved code has no length in the table (R81). -/
theorem commandLength_reserved (code : Byte) (h : reservedCode code = true) : commandLength code = none := by
  revert h
  revert code
  decide

namespace Laws.EncodeFits

def Statement (i : Instr) : Prop := ∀ c : Cfg, c.wf = true → WellFormed c i = true → (encode c i).fits c

theorem decBtn (b1 : Byte) (b2 : Byte) : Statement (.decBtn b1 b2) := by
  intro c h _
  have := c.wf_layout h
  exact inputReport_fits c _ (by simp; omega)

theorem decBtnAcc (b1 : Byte) (b2 : Byte) (ax : Byte) (ay : Byte) (az : Byte) : Statement (.decBtnAcc b1 b2 ax ay az) := by
  intro c h _
  have := c.wf_layout h
  exact inputReport_fits c _ (by simp; omega)

theorem decBtnAccIrExt (b1 : Byte) (b2 : Byte) (ax : Byte) (ay : Byte) (az : Byte) (g0 : IrGroup) (g1 : IrGroup) : Statement (.decBtnAccIrExt b1 b2 ax ay az g0 g1) := by
  intro c h _
  have := c.wf_layout h
  exact inputReport_fits c _ (by simp [IrGroup.bytes]; omega)

theorem decBtnIrExt (b1 : Byte) (b2 : Byte) (g0 : IrGroup) (g1 : IrGroup) : Statement (.decBtnIrExt b1 b2 g0 g1) := by
  intro c h _
  have := c.wf_layout h
  exact inputReport_fits c _ (by simp [IrGroup.bytes]; omega)

theorem decStatus (led : Byte) : Statement (.decStatus led) := by
  intro c h _
  have := c.wf_layout h
  exact inputReport_fits c _ (by simp; omega)

theorem decReadResult : Statement .decReadResult := by
  intro c h _
  have := c.wf_layout h
  exact inputReport_fits c _ (by simp; omega)

theorem decAck : Statement .decAck := by
  intro c h _
  have := c.wf_layout h
  exact inputReport_fits c _ (by simp; omega)

theorem decUnknown (tag : Byte) : Statement (.decUnknown tag) := by
  intro c h _
  have := c.wf_layout h
  exact inputReport_fits c _ (by simp; omega)

theorem decEmpty : Statement .decEmpty := by
  intro c _ _
  exact ⟨length_mkpkt c [] (Nat.zero_le _), Nat.zero_le _⟩

theorem mode (m : ReportingMode) : Statement (.mode m) := by
  intro c _ _
  exact ⟨_, _, rfl, .inl rfl⟩

theorem iron (m : IrMode) (sens : Sensitivity) : Statement (.iron m sens) := by
  intro c _ _
  exact ⟨_, _, rfl, .inl rfl⟩

theorem iroff : Statement .iroff := by
  intro c _ _
  exact ⟨_, _, rfl, .inl rfl⟩

theorem leds (mask : BitVec 4) : Statement (.leds mask) := by
  intro c _ _
  exact ⟨_, _, rfl, .inl rfl⟩

theorem rumble (on : Bool) : Statement (.rumble on) := by
  intro c _ _
  exact ⟨_, _, rfl, .inl rfl⟩

theorem spken (on : Bool) : Statement (.spken on) := by
  intro c _ _
  exact ⟨_, _, rfl, .inl rfl⟩

theorem spkmute (mute : Bool) : Statement (.spkmute mute) := by
  intro c _ _
  exact ⟨_, _, rfl, .inl rfl⟩

theorem spkdata (samples : List Byte) : Statement (.spkdata samples) := by
  intro c _ h
  have h20 : samples.length = 20 := by simpa [WellFormed] using h
  exact ⟨_, _, rfl, .inl (by simp [commandLength, h20])⟩

theorem cmdReserved (code : Byte) (ops : List Byte) : Statement (.cmdReserved code ops) := by
  intro c _ h
  exact ⟨code, ops, rfl, .inr (commandLength_reserved code h)⟩

theorem feature (t : FeatureTag) (on : Bool) : Statement (.feature t on) := by
  intro c h _
  have := c.wf_layout h
  exact length_mkpkt c _ (by simp; omega)

theorem wreg (addr : Nat) (data : List Byte) : Statement (.wreg addr data) := by
  intro c h _
  have := c.wf_layout h
  exact length_mkpkt c _ (by simp [addrBytes]; omega)

end Laws.EncodeFits

end Sys2Proof
end

