-- ==== Sys2Proof/Laws/Report.lean ====
section
/-! SUPPORT. The specification of `decodeReport` (spec/40_decoder.md R92), one lemma per line of its pseudocode. -/

namespace Sys2Proof.Machine

theorem decodeReport_empty (c : Cfg) (buf : Packet) (n : Nat) (h : min n c.pktLen = 0) :
    decodeReport c buf n = ([], some .empty) := by
  simp only [decodeReport, decodeInput, decodeClipped, h, if_true]
  rfl

theorem decodeReport_unknown (c : Cfg) (buf : Packet) (n : Nat) (h : min n c.pktLen ≠ 0)
    (ht : lookupTag c (byteAt buf 0) = none) : decodeReport c buf n = ([], some (.unknownTag (byteAt buf 0))) := by
  simp only [decodeReport, decodeInput, decodeClipped, h, if_false, ht]
  rfl

theorem decodeReport_branch (c : Cfg) (buf : Packet) (n : Nat) (br : InBranch) (h : min n c.pktLen ≠ 0)
    (ht : lookupTag c (byteAt buf 0) = some br) :
    decodeReport c buf n =
      if min n c.pktLen < reqlen c br then ([], some (.short (byteAt buf 0) (min n c.pktLen)))
      else reportEvents c (readBranch c buf br) := by
  by_cases hr : min n c.pktLen < reqlen c br <;>
    simp only [decodeReport, decodeInput, decodeClipped, h, if_false, ht, hr, if_true]

end Sys2Proof.Machine
end

