-- ==== Sys2Proof/Laws/Step.lean ====
section
/-! SUPPORT. What one step can do, said once, and what an instruction can do to a session. -/

namespace Sys2Proof.Machine

/-! ### Instructions -/

/-- A session after an instruction has run on it while open. -/
def openEffect (i : Instr) (s : State) : State :=
  match i with
  | .rumble on => (s.setRumble on).runBody 0 (program s.cfg (.rumble on))
  | .cmdReserved code ops => s.raise (.badCommand (code :: ops))
  | .decBtn _ _ | .decBtnAcc _ _ _ _ _ | .decBtnAccIrExt _ _ _ _ _ _ _ | .decBtnIrExt _ _ _ _ | .decStatus _
  | .decReadResult | .decAck | .decUnknown _ | .decEmpty =>
    s.deliver (reportEvents s.cfg i).1 (reportEvents s.cfg i).2
  | .mode _ | .iron _ _ | .iroff | .leds _ | .spken _ | .spkmute _ | .spkdata _ | .feature _ _ | .wreg _ _ =>
    s.runBody 0 (program s.cfg i)

/-- The specification of `exec`: E_CLOSED on a closed session, else the instruction's effect. -/
theorem exec_eq (i : Instr) (s : State) : exec i s = .next (s.whenOpen (openEffect i)) := by
  cases i <;>
    simp only [exec, execDecBtn, execDecBtnAcc, execDecBtnAccIrExt, execDecBtnIrExt, execDecStatus, execDecReadResult,
      execDecAck, execDecUnknown, execDecEmpty, execMode, execLeds, execRumble, execSpken, execSpkmute, execFeature,
      execWreg, execIron, execIroff, execSpkdata, execCmdReserved, State.badCommand,
      State.perform_eq_runBody] <;>
    rfl

/-! ### Fetching -/

/-- Everything `fetch` can answer. -/
theorem State.fetch_cases (s : State) :
    (∃ prog i, s.seq = .run prog i ∧ s.fetch = .done s.seqStep) ∨
    (s.seq = .idle ∧ s.calls = [] ∧ s.fetch = .stuck .awaitingCaller) ∨
    (∃ word rest, s.seq = .idle ∧ s.calls = .write word :: rest ∧
      s.fetch = .bytes (.command word) { s with calls := rest }) ∨
    (∃ rest code, s.seq = .idle ∧ s.calls = .read :: rest ∧ s.session = .closed code ∧
      s.fetch = .done ({ s with calls := rest }.raise .closed)) ∨
    (∃ rest, s.seq = .idle ∧ s.calls = .read :: rest ∧ s.session = .isOpen ∧ s.queue ≠ [] ∧
      s.fetch = .done (State.popReply { s with calls := rest })) ∨
    (∃ rest, s.seq = .idle ∧ s.calls = .read :: rest ∧ s.session = .isOpen ∧ s.queue = [] ∧ s.inbox = [] ∧
      s.fetch = .stuck .awaitingTransport) ∨
    (∃ rest inbox, s.seq = .idle ∧ s.calls = .read :: rest ∧ s.session = .isOpen ∧ s.queue = [] ∧
      s.inbox = .fail :: inbox ∧ s.fetch = .done (State.readFailed { s with calls := rest, inbox := inbox })) ∨
    ∃ rest buf n inbox, s.seq = .idle ∧ s.calls = .read :: rest ∧ s.session = .isOpen ∧ s.queue = [] ∧
      s.inbox = .packet buf n :: inbox ∧
      s.fetch = .bytes (.input buf n) { s with calls := rest, inbox := inbox } := by
  obtain ⟨cfg, session, rumble, queue, seq, diag, calls, inbox, sendOk, trace, replies⟩ := s
  rcases seq with _ | ⟨prog, i⟩
  · rcases calls with _ | ⟨⟨word⟩ | _, rest⟩
    · simp [State.fetch]
    · simp [State.fetch]
    · rcases session with _ | code
      · rcases queue with _ | ⟨e, q⟩
        · rcases inbox with _ | ⟨⟨buf, n⟩ | _, inbox⟩ <;> simp [State.fetch, State.takeRead]
        · simp [State.fetch, State.takeRead]
      · simp [State.fetch]
  · simp [State.fetch]

end Sys2Proof.Machine
end

