-- ==== Sys2Proof/Laws/Session.lean ====
section
/-! SUPPORT. What one operation of the caller does, said once: the loop of R162 on a transport that accepts or refuses,
and every next state of a step. -/

namespace Sys2Proof.Machine

/-! ### The loop -/

/-- What the loop puts out, from the transport's answers and RUMBLE. -/
def outItems (answers : List Bool) (rumble : Bool) : List MicroOp → List TraceItem
  | [] => []
  | .wait k :: rest => .wait k :: outItems answers rumble rest
  | .pkt p :: rest =>
    if answers.headD true then .sent (merge rumble p) :: outItems answers.tail rumble rest
    else [.attempted (merge rumble p)]

theorem State.runBody_trace (s : State) (i : Nat) (prog : List MicroOp) :
    (s.runBody i prog).trace = s.trace ++ outItems s.sendOk s.rumble prog := by
  induction prog generalizing s i with
  | nil => simp [State.runBody, outItems]
  | cons m rest ih =>
    cases m with
    | wait k => simp [State.runBody, outItems, ih]
    | pkt p =>
      simp only [State.runBody, outItems]
      split <;> simp [ih]

@[simp] theorem packetCount_wait (k : WaitKind) (rest : List MicroOp) :
    packetCount (.wait k :: rest) = packetCount rest := by
  simp [packetCount]

@[simp] theorem packetCount_pkt (p : Packet) (rest : List MicroOp) :
    packetCount (.pkt p :: rest) = packetCount rest + 1 := by
  simp [packetCount]

/-- The loop when every packet is accepted. -/
theorem State.runBody_accepted (s : State) (i : Nat) (prog : List MicroOp)
    (h : s.accepts (packetCount prog) = true) :
    s.runBody i prog = s.afterItems (packetCount prog) (programItems s.rumble prog) := by
  induction prog generalizing s i with
  | nil => simp [State.runBody, State.afterItems, packetCount, programItems, State.setSeq, State.reply]
  | cons m rest ih =>
    cases m with
    | wait k =>
      simp only [State.runBody]
      rw [packetCount_wait] at h ⊢
      rw [ih _ _ (by simpa [State.accepts] using h)]
      simp [State.afterItems, State.emit, programItems]
    | pkt p =>
      rw [packetCount_pkt] at h ⊢
      have hh : s.sendOk.headD true = true ∧ (s.sendOk.tail.take (packetCount rest)).all id = true := by
        cases hs : s.sendOk with
        | nil => simp
        | cons a l => simpa [State.accepts, hs] using h
      simp only [State.runBody, hh.1, if_true]
      rw [ih _ _ (by simpa [State.accepts] using hh.2)]
      simp [State.afterItems, State.emit, State.dropSendAnswer, programItems]

/-- The loop when the packet at index `j` is the first that is refused. -/
theorem State.runBody_refused (s : State) (i j : Nat) (prog : List MicroOp) (p : Packet)
    (hp : prog[j]? = some (.pkt p)) (h : s.accepts (packetCount (prog.take j)) = true)
    (hf : s.sendOk[packetCount (prog.take j)]? = some false) :
    s.runBody i prog = s.afterFailure (packetCount (prog.take j)) (i + j) (programItems s.rumble (prog.take j))
      (merge s.rumble p) := by
  induction prog generalizing s i j with
  | nil => simp at hp
  | cons m rest ih =>
    cases j with
    | zero =>
      have hm : m = .pkt p := by simpa using hp
      have hd : s.sendOk.headD true = false := by
        cases hs : s.sendOk <;> simp_all [packetCount]
      simp only [State.runBody, hm, hd]
      simp [State.afterFailure, packetCount, programItems, State.fatal, State.raise, State.reply, State.emit,
        State.dropSendAnswer, Err.code]
    | succ j =>
      simp only [List.getElem?_cons_succ] at hp
      rw [List.take_succ_cons] at h hf ⊢
      cases m with
      | wait k =>
        rw [packetCount_wait] at h hf ⊢
        simp only [State.runBody]
        rw [ih _ _ j hp (by simpa [State.accepts] using h) (by simpa using hf)]
        simp [State.afterFailure, State.emit, programItems]
        omega
      | pkt q =>
        rw [packetCount_pkt] at h hf ⊢
        have hh : s.sendOk.headD true = true ∧ (s.sendOk.tail.take (packetCount (rest.take j))).all id = true ∧
            s.sendOk.tail[packetCount (rest.take j)]? = some false := by
          cases hs : s.sendOk with
          | nil => simp [hs] at hf
          | cons a l =>
            simp [State.accepts, hs] at h hf ⊢
            exact ⟨h.1, h.2, hf⟩
        simp only [State.runBody, hh.1, if_true]
        rw [ih _ _ j hp (by simpa [State.accepts] using hh.2.1)
          (by simpa [State.dropSendAnswer, State.emit] using hh.2.2)]
        simp [State.afterFailure, State.emit, State.dropSendAnswer, programItems]
        omega

/-- An accepted command on an open session runs its program. -/
theorem openEffect_program (i : Instr) (s : State) (h : program s.cfg i ≠ []) :
    openEffect i s = (s.flagged i).runBody 0 (program s.cfg i) := by
  cases i <;> first | rfl | exact absurd rfl h

/-- `flagged` writes RUMBLE only. -/
theorem State.flagged_frame (s : State) (i : Instr) :
    (s.flagged i).cfg = s.cfg ∧ (s.flagged i).session = s.session ∧ (s.flagged i).queue = s.queue ∧
      (s.flagged i).seq = s.seq ∧ (s.flagged i).diag = s.diag ∧ (s.flagged i).calls = s.calls ∧
      (s.flagged i).inbox = s.inbox ∧ (s.flagged i).sendOk = s.sendOk ∧ (s.flagged i).trace = s.trace ∧
      (s.flagged i).replies = s.replies := by
  cases i <;> simp [State.flagged]

/-- What a transition of the sequencer leaves alone. -/
theorem State.seqStep_frame (s : State) :
    s.seqStep.cfg = s.cfg ∧ s.seqStep.rumble = s.rumble ∧ s.seqStep.queue = s.queue ∧ s.seqStep.diag = s.diag ∧
      s.seqStep.calls = s.calls ∧ s.seqStep.inbox = s.inbox := by
  cases h : s.seq with
  | idle => simp [State.seqStep, h]
  | run prog i =>
    rcases s.seqStep_cases prog i h with ⟨_, e⟩ | ⟨_, _, e⟩ | ⟨_, _, _, e⟩ | ⟨_, _, _, e⟩ <;> rw [e] <;> simp

/-- How the loop ends: with the answer ok and SESSION as it was, or at the first packet the transport refuses, with its
error and SESSION closed. -/
theorem State.runBody_end (s : State) (i : Nat) (prog : List MicroOp) :
    ((s.runBody i prog).session = s.session ∧ (s.runBody i prog).replies = s.replies ++ [.writeOk]) ∨
      ((s.runBody i prog).session = .closed .transport ∧ ∃ j p, prog[j]? = some (.pkt p) ∧
        s.accepts (packetCount (prog.take j)) = true ∧ s.sendOk[packetCount (prog.take j)]? = some false ∧
        (s.runBody i prog).replies = s.replies ++ [.error (.transportWrite (i + j))]) := by
  induction prog generalizing s i with
  | nil => exact .inl ⟨rfl, rfl⟩
  | cons m rest ih =>
    cases m with
    | wait k =>
      rcases ih (s.emit (.wait k)) (i + 1) with h | ⟨h, j, p, hp, ha, hf, hr⟩
      · exact .inl h
      · refine .inr ⟨h, j + 1, p, hp, by simpa [State.accepts] using ha, by simpa using hf, ?_⟩
        simp only [State.runBody, hr, State.emit_replies]
        rw [Nat.add_assoc, Nat.add_comm 1 j]
    | pkt q =>
      cases ho : s.sendOk.headD true with
      | true =>
        have e : s.runBody i (.pkt q :: rest) =
            (s.dropSendAnswer.emit (.sent (merge s.rumble q))).runBody (i + 1) rest := by
          simp only [State.runBody, ho, if_true]
        rw [e]
        rcases ih (s.dropSendAnswer.emit (.sent (merge s.rumble q))) (i + 1) with h | ⟨h, j, p, hp, ha, hf, hr⟩
        · exact .inl h
        · refine .inr ⟨h, j + 1, p, hp, ?_, ?_, by rw [hr, Nat.add_assoc, Nat.add_comm 1 j]; rfl⟩
          · cases hs : s.sendOk <;> simp_all [State.accepts]
          · cases hs : s.sendOk <;> simp_all
      | false =>
        have e : s.runBody i (.pkt q :: rest) =
            (s.dropSendAnswer.emit (.attempted (merge s.rumble q))).fatal (.transportWrite i) := by
          simp only [State.runBody, ho, Bool.false_eq_true, if_false]
        have hf : s.sendOk[0]? = some false := by cases hs : s.sendOk <;> simp_all
        rw [e]
        exact .inr ⟨rfl, 0, q, rfl, by simp [packetCount, State.accepts], by simpa [packetCount] using hf, rfl⟩

/-- A merged packet, from the bytes it is made of. -/
theorem merge_mkpkt (c : Cfg) (r : Bool) (a b : Byte) (rest : List Byte) :
    merge r (mkpkt c (a :: b :: rest)) =
      a :: mergeByte r b :: (rest ++ List.replicate (c.pktLen - (rest.length + 2)) 0) := by
  simp [mkpkt, merge, zeros]

/-! ### Words -/

/-- What a command word is: a command with a program, the reserved row, or a word the session refuses. -/
theorem decodeCommand_cases (word : List Byte) :
    (∃ i, decodeCommand word = .instr i ∧ ∀ c, program c i ≠ []) ∨
    (∃ code ops, word = code :: ops ∧ decodeCommand word = .instr (.cmdReserved code ops)) ∨
    ∃ r, decodeCommand word = .reject r ∧ ∀ s : State, s.rejected (.command word) r = s.badCommand word := by
  cases word with
  | nil => exact .inr (.inr ⟨_, rfl, fun _ => rfl⟩)
  | cons code ops =>
    cases hk : commandLength code with
    | none => exact .inr (.inl ⟨code, ops, rfl, by simp [decodeCommand, hk]⟩)
    | some k =>
      by_cases hl : ops.length + 1 = k
      · cases hc : commandOf code ops with
        | none => exact .inr (.inr ⟨.badOperand, by simp [decodeCommand, hk, hl, hc], fun _ => rfl⟩)
        | some i =>
          refine .inl ⟨i, by simp [decodeCommand, hk, hl, hc], fun c => ?_⟩
          unfold commandOf at hc
          split at hc
          case h_2 =>
            split at hc
            · injection hc with hc
              subst hc
              simp [program, progIron, progFeature]
            · exact absurd hc (by simp)
          case h_9 => exact absurd hc (by simp)
          all_goals
            simp only [Option.map_eq_some_iff, Option.some.injEq] at hc
            try obtain ⟨_, _, rfl⟩ := hc
            simp [program, progMode, progLeds, progRumble, progSpken, progSpkmute, progIroff, progSpkdata, progFeature]
      · exact .inr (.inr ⟨.badLength, by simp [decodeCommand, hk, hl], fun _ => rfl⟩)

/-! ### Operations -/

theorem State.session_cases (s : State) : s.session = .isOpen ∨ ∃ code, s.session = .closed code := by
  cases s.session with
  | isOpen => exact .inl rfl
  | closed code => exact .inr ⟨code, rfl⟩

/-- A word that is refused answers one error and changes nothing else. -/
theorem State.badCommand_eq (s : State) (word : List Byte) :
    s.badCommand word =
      { s with replies := s.replies ++ [.error (if s.session = .isOpen then .badCommand word else .closed)] } := by
  unfold State.badCommand
  rcases s.whenOpen_cases (fun s => s.raise (.badCommand word)) with ⟨h, e⟩ | ⟨c, h, e⟩ <;> rw [e] <;>
    simp [State.raise, State.reply, h]

/-- A write on an idle machine. -/
theorem step_write (s : State) (word : List Byte) (rest : List Call) (hs : s.seq = .idle)
    (hc : s.calls = .write word :: rest) :
    step s =
      match decodeCommand word with
      | .instr i => exec i { s with calls := rest }
      | .reject r => .next (State.rejected { s with calls := rest } (.command word) r) := by
  have hf : s.fetch = .bytes (.command word) { s with calls := rest } := by
    simp only [State.fetch, hs, hc]
  unfold step
  rw [hf]
  cases h : decodeCommand word <;> simp [decode, h]

/-- A report that the transport hands to a read, decoded and delivered. -/
theorem step_report (s : State) (buf : Packet) (n : Nat) (hs : s.session = .isOpen) :
    (match decode s.cfg (.input buf n) with
      | .instr i => exec i s
      | .reject r => .next (s.rejected (.input buf n) r)) =
      Host.Outcome.next (s.deliver (decodeReport s.cfg buf n).1 (decodeReport s.cfg buf n).2) := by
  by_cases hk : min n s.cfg.pktLen = 0
  · rw [decodeReport_empty _ _ _ hk]
    simp only [decode, decodeInput, decodeClipped, hk, if_true, exec_eq, State.whenOpen_isOpen _ _ hs]
    rfl
  · cases hb : lookupTag s.cfg (byteAt buf 0) with
    | none =>
      rw [decodeReport_unknown _ _ _ hk hb]
      simp only [decode, decodeInput, decodeClipped, hk, if_false, hb, exec_eq, State.whenOpen_isOpen _ _ hs]
      rfl
    | some br =>
      rw [decodeReport_branch _ _ _ _ hk hb]
      by_cases hn : min n s.cfg.pktLen < reqlen s.cfg br
      · simp only [decode, decodeInput, decodeClipped, hk, if_false, hb, hn, if_true, State.rejected, execDecShort,
          State.whenOpen_isOpen _ _ hs]
      · simp only [decode, decodeInput, decodeClipped, hk, if_false, hb, hn, exec_eq, State.whenOpen_isOpen _ _ hs]
        cases br <;> rfl

/-- Every next state of a step: a transition of a running sequencer; a write that answers E_CLOSED, E_BAD_COMMAND, or
runs its program; a read that answers E_CLOSED, pops, fails, or delivers a report. -/
theorem step_cases (s t : State) (h : step s = .next t) :
    (∃ prog i, s.seq = .run prog i ∧ t = s.seqStep) ∨
    (s.seq = .idle ∧ ∃ word rest, s.calls = .write word :: rest ∧
      ((∃ code, s.session = .closed code ∧ t = State.raise { s with calls := rest } .closed) ∨
       (s.session = .isOpen ∧ t = State.raise { s with calls := rest } (.badCommand word)) ∨
       (s.session = .isOpen ∧ ∃ i, decodeCommand word = .instr i ∧ program s.cfg i ≠ [] ∧
         t = (State.flagged { s with calls := rest } i).runBody 0 (program s.cfg i)))) ∨
    (s.seq = .idle ∧ ∃ rest, s.calls = .read :: rest ∧
      ((∃ code, s.session = .closed code ∧ t = State.raise { s with calls := rest } .closed) ∨
       (s.session = .isOpen ∧ s.queue ≠ [] ∧ t = State.popReply { s with calls := rest }) ∨
       (s.session = .isOpen ∧ s.queue = [] ∧ ∃ inbox, s.inbox = .fail :: inbox ∧
         t = State.readFailed { s with calls := rest, inbox := inbox }) ∨
       (s.session = .isOpen ∧ s.queue = [] ∧ ∃ buf n inbox, s.inbox = .packet buf n :: inbox ∧
         t = State.deliver { s with calls := rest, inbox := inbox } (decodeReport s.cfg buf n).1
           (decodeReport s.cfg buf n).2))) := by
  rcases s.fetch_cases with ⟨prog, i, hs, hf⟩ | ⟨_, _, hf⟩ | ⟨word, rest, hs, hc, _⟩ | ⟨rest, code, hs, hc, hx, hf⟩ |
    ⟨rest, hs, hc, hx, hq, hf⟩ | ⟨_, _, _, _, _, _, hf⟩ | ⟨rest, inbox, hs, hc, hx, hq, hi, hf⟩ |
    ⟨rest, buf, n, inbox, hs, hc, hx, hq, hi, hf⟩
  · unfold step at h
    rw [hf] at h
    injection h with h
    exact .inl ⟨prog, i, hs, h.symm⟩
  · unfold step at h
    rw [hf] at h
    exact absurd h (by simp)
  · rw [step_write s word rest hs hc] at h
    refine .inr (.inl ⟨hs, word, rest, hc, ?_⟩)
    rcases decodeCommand_cases word with ⟨i, hi, hp⟩ | ⟨code, ops, rfl, hi⟩ | ⟨r, hr, hb⟩
    · simp only [hi, exec_eq] at h
      injection h with h
      obtain hx | ⟨code, hx⟩ := s.session_cases
      · rw [State.whenOpen_isOpen { s with calls := rest } _ hx, openEffect_program _ _ (hp _)] at h
        exact .inr (.inr ⟨hx, i, hi, hp _, h.symm⟩)
      · rw [State.whenOpen_closed { s with calls := rest } _ code hx] at h
        exact .inl ⟨code, hx, h.symm⟩
    · simp only [hi, exec_eq] at h
      injection h with h
      obtain hx | ⟨code, hx⟩ := s.session_cases
      · rw [State.whenOpen_isOpen { s with calls := rest } _ hx] at h
        exact .inr (.inl ⟨hx, h.symm⟩)
      · rw [State.whenOpen_closed { s with calls := rest } _ code hx] at h
        exact .inl ⟨code, hx, h.symm⟩
    · simp only [hr, hb] at h
      injection h with h
      unfold State.badCommand at h
      obtain hx | ⟨code, hx⟩ := s.session_cases
      · rw [State.whenOpen_isOpen { s with calls := rest } _ hx] at h
        exact .inr (.inl ⟨hx, h.symm⟩)
      · rw [State.whenOpen_closed { s with calls := rest } _ code hx] at h
        exact .inl ⟨code, hx, h.symm⟩
  · unfold step at h
    rw [hf] at h
    injection h with h
    exact .inr (.inr ⟨hs, rest, hc, .inl ⟨code, hx, h.symm⟩⟩)
  · unfold step at h
    rw [hf] at h
    injection h with h
    exact .inr (.inr ⟨hs, rest, hc, .inr (.inl ⟨hx, hq, h.symm⟩)⟩)
  · unfold step at h
    rw [hf] at h
    exact absurd h (by simp)
  · unfold step at h
    rw [hf] at h
    injection h with h
    exact .inr (.inr ⟨hs, rest, hc, .inr (.inr (.inl ⟨hx, hq, inbox, hi, h.symm⟩))⟩)
  · unfold step at h
    rw [hf] at h
    injection (step_report { s with calls := rest, inbox := inbox } buf n hx).symm.trans h with h
    exact .inr (.inr ⟨hs, rest, hc, .inr (.inr (.inr ⟨hx, hq, buf, n, inbox, hi, h.symm⟩))⟩)

end Sys2Proof.Machine
end

