-- ==== Sys2Proof/Tests/Slice0.lean ====
section
/-! SUPPORT. The model's own tests. Expected values are the spec's: the layouts of spec/30_encoding.md and the vectors of
spec/95_test_vectors.md, named in each comment. The witnesses at the end meet the hypotheses of the statements. -/

namespace Sys2Proof.Tests

open Sys2Proof.Machine

/-! ### Helpers -/

/-- Bytes and then zeros up to 22, the vectors' notation `[... | 0×k]`. -/
def pad (bs : List Byte) : Packet := bs ++ List.replicate (22 - bs.length) 0

/-- The 20 samples of V-S6: 0x00 to 0x13. -/
def samples : List Byte := (List.range 20).map fun k => BitVec.ofNat 8 k

/-- The reset state with a rumble flag. -/
def flag (on : Bool) : State := { State.reset with rumble := on }

/-- The caller writes a word. -/
def writing (s : State) (word : List Byte) : State := { s with calls := [.write word] }

/-- The caller reads, and the transport has this packet. -/
def reading (s : State) (buf : Packet) (n : Nat) : State :=
  { s with calls := [.read], inbox := [.packet (pad buf) n] }

/-- A session that a transport failure has closed. -/
def dead : State := { State.reset with session := .closed .transport }

/-- An event in QUEUE, as V-R6 has it. -/
def queued : State := { State.reset with queue := [.accel 0 0 0] }

/-- The next state, if there is one. -/
def next? : Host.Outcome State Fault Refusal → Option State
  | .next t => some t
  | .fault _ => none
  | .refused _ => none

/-- What one step puts on PKT_OUT and WAIT. -/
def traceOf (o : Host.Outcome State Fault Refusal) : Option (List TraceItem) := (next? o).map (·.trace)

/-- What one step answers. -/
def repliesOf (o : Host.Outcome State Fault Refusal) : Option (List Reply) := (next? o).map (·.replies)

/-- The events and the diagnostic of a report, under REFCFG. -/
def report (bs : List Byte) (n : Nat) : List Event × Option Diag := decodeReport refCfg (pad bs) n

/-- No button. -/
def noButtons : Buttons Bool where
  left := false
  right := false
  down := false
  up := false
  plus := false
  minus := false
  home := false
  one := false
  two := false
  a := false
  b := false

/-- An IR slot, from its two coordinates. -/
def obj (x y : Nat) : Option IrObject := some { x := BitVec.ofNat 10 x, y := BitVec.ofNat 10 y }

/-- A group of an IR window (R68). -/
def grp (a b c d e : Byte) : IrGroup := { xa := a, ya := b, m := c, xb := d, yb := e }

/-! ### WellFormed and Cfg.wf refuse ill-formed terms -/

theorem test_wf_unknown_tag_is_known : WellFormed refCfg (.decUnknown 0x37) = false := by decide
theorem test_wf_unknown_tag : WellFormed refCfg (.decUnknown 0x3D) = true := by decide
theorem test_wf_spkdata_19 : WellFormed refCfg (.spkdata (List.replicate 19 0)) = false := by decide
theorem test_wf_spkdata_20 : WellFormed refCfg (.spkdata samples) = true := by decide
theorem test_wf_reserved_known_code : WellFormed refCfg (.cmdReserved 0x08 []) = false := by decide
theorem test_wf_reserved : WellFormed refCfg (.cmdReserved 0x09 [0]) = true := by decide
theorem test_wf_wreg_address : WellFormed refCfg (.wreg 0x1000000 [1]) = false := by decide
theorem test_wf_wreg_no_data : WellFormed refCfg (.wreg 0 []) = false := by decide
theorem test_wf_wreg_17 : WellFormed refCfg (.wreg 0 (List.replicate 17 0)) = false := by decide
theorem test_wf_wreg : WellFormed refCfg (.wreg 0xFFFFFF (List.replicate 16 0)) = true := by decide

theorem test_cfg_ref : refCfg.wf = true := by decide
/-- R7: two input tags may not be equal. -/
theorem test_cfg_equal_tags : { refCfg with itag := { refInTags with ack := 0x30 } }.wf = false := by decide
/-- R7: the sub-header must have bit 0 clear. -/
theorem test_cfg_bit0 : { refCfg with spkSub := 0xA1 }.wf = false := by decide
/-- R7: the sentinels must differ. -/
theorem test_cfg_sentinels : { refCfg with enable := 0x00 }.wf = false := by decide
/-- R6: a mask has one bit. -/
theorem test_cfg_mask : { refCfg with btn := { refButtons with home := { byte := .b2, mask := 0x81 } } }.wf = false := by
  decide
/-- R104: the fields of the middle byte are disjoint. -/
theorem test_cfg_ir_mid : { refCfg with irMid := { refIrMid with ax := 1 } }.wf = false := by decide
theorem test_cfg_layout : { refCfg with pktLen := 21 }.wf = false := by decide
theorem test_cfg_queue : { refCfg with queueCap := 4 }.wf = false := by decide

/-! ### Decoding: every row of the table, from a word written out from the spec's layout -/

/-- V-D6b's bytes, full length. -/
theorem test_decode_dec_btn : decode refCfg (.input (pad [0x30, 0x08, 0x80]) 22) = .instr (.decBtn 0x08 0x80) := by decide
/-- V-D1. -/
theorem test_decode_dec_btn_acc : decode refCfg (.input (pad [0x31, 0x60, 0x20, 0x80, 0x81, 0x7F]) 22) =
    .instr (.decBtnAcc 0x60 0x20 0x80 0x81 0x7F) := by decide
/-- V-D7. -/
theorem test_decode_dec_btn_acc_ir_ext : decode refCfg (.input (pad [0x37, 0x68, 0xC0, 0x90, 0x70, 0x80, 0x10, 0x20, 0x00,
    0x30, 0x40, 0xFF, 0xFF, 0x0B, 0x7F, 0x01]) 22) =
    .instr (.decBtnAccIrExt 0x68 0xC0 0x90 0x70 0x80 (grp 0x10 0x20 0x00 0x30 0x40) (grp 0xFF 0xFF 0x0B 0x7F 0x01)) := by
  decide
/-- V-D9. -/
theorem test_decode_dec_btn_ir_ext : decode refCfg (.input (pad [0x36, 0x01, 0x10, 0x05, 0x06, 0x50, 0x07, 0x08, 0xFF, 0xFF,
    0x00, 0xFF, 0xFF]) 22) =
    .instr (.decBtnIrExt 0x01 0x10 (grp 0x05 0x06 0x50 0x07 0x08) (grp 0xFF 0xFF 0x00 0xFF 0xFF)) := by decide
/-- V-D14. -/
theorem test_decode_dec_status : decode refCfg (.input (pad [0x20, 0x00, 0x00, 0x9F]) 22) = .instr (.decStatus 0x9F) := by
  decide
/-- V-D18: one byte is enough. -/
theorem test_decode_dec_read_result : decode refCfg (.input (pad [0x21, 1, 2, 3]) 1) = .instr .decReadResult := by decide
theorem test_decode_dec_ack : decode refCfg (.input (pad [0x22]) 22) = .instr .decAck := by decide
/-- V-D22: a zero tag is unknown, and the tag comes before any length. -/
theorem test_decode_dec_unknown : decode refCfg (.input (pad [0x00]) 1) = .instr (.decUnknown 0x00) := by decide
/-- V-D24: no byte comes before the tag. -/
theorem test_decode_dec_empty : decode refCfg (.input (pad [0x3D]) 0) = .instr .decEmpty := by decide
/-- V-D26: the count is clipped. -/
theorem test_decode_clipped : decode refCfg (.input (pad [0x30, 0x08, 0x80]) 40) = .instr (.decBtn 0x08 0x80) := by decide
/-- V-D11: one byte short. -/
theorem test_decode_short : decode refCfg (.input (pad [0x37]) 15) = .reject (.short 0x37 15) := by decide

theorem test_decode_mode : decode refCfg (.command [0x01, 0x03]) = .instr (.mode .btnIrExt) := by decide
theorem test_decode_iron : decode refCfg (.command [0x02, 0x02, 0x06]) = .instr (.iron .full .custom2) := by decide
/-- R76: every IR mode index, and every sensitivity index. -/
theorem test_decode_iron_indices :
    (List.range 3).map (fun k => decode refCfg (.command [0x02, BitVec.ofNat 8 k, 0x00])) =
      [.basic, .extended, .full].map (fun m => .instr (.iron m .level1)) ∧
    (List.range 7).map (fun k => decode refCfg (.command [0x02, 0x00, BitVec.ofNat 8 k])) =
      [.level1, .level2, .level3, .level4, .level5, .custom1, .custom2].map (fun l => .instr (.iron .basic l)) := by decide
theorem test_decode_iroff : decode refCfg (.command [0x03]) = .instr .iroff := by decide
theorem test_decode_leds : decode refCfg (.command [0x04, 0x0F]) = .instr (.leds 15#4) := by decide
theorem test_decode_rumble : decode refCfg (.command [0x05, 0x00]) = .instr (.rumble false) := by decide
theorem test_decode_spken : decode refCfg (.command [0x06, 0x01]) = .instr (.spken true) := by decide
theorem test_decode_spkmute : decode refCfg (.command [0x07, 0x01]) = .instr (.spkmute true) := by decide
theorem test_decode_spkdata : decode refCfg (.command (0x08 :: samples)) = .instr (.spkdata samples) := by decide
/-- V-C2. -/
theorem test_decode_cmd_reserved : decode refCfg (.command [0x09, 0x00]) = .instr (.cmdReserved 0x09 [0x00]) := by decide
/-- V-E2's packet, as it goes out. -/
theorem test_decode_feature : decode refCfg (.output (pad [0x13, 0x01])) = .instr (.feature .irPixClk false) := by decide
/-- V-L7 as corrected. -/
theorem test_decode_wreg : decode refCfg (.output (pad [0x16, 0x04, 0xA2, 0x00, 0x09, 0x01, 0x01])) =
    .instr (.wreg 0xA20009 [0x01]) := by decide

theorem test_reject_empty_word : decode refCfg (.command []) = .reject .emptyWord := by decide
/-- V-C4, V-C14. -/
theorem test_reject_length : decode refCfg (.command [0x01]) = .reject .badLength ∧
    decode refCfg (.command [0x05, 0x01, 0x00]) = .reject .badLength := by decide
/-- V-C5 to V-C7 and V-C9 to V-C12. -/
theorem test_reject_operand : [[0x01, 0x04], [0x02, 0x03, 0x00], [0x02, 0x00, 0x07], [0x04, 0x10], [0x05, 0x02],
    [0x06, 0xFF], [0x07, 0x02]].all (fun word => decode refCfg (.command word) = .reject .badOperand) = true := by decide
/-- An LED packet is no internal micro-op. -/
theorem test_reject_output : decode refCfg (.output (pad [0x11, 0x50])) = .reject .notMicroOp := by decide

/-- The rows' own numbers, bit 0 the least significant bit of byte 0. -/
theorem test_table_words : decodeTableWord 8 0x30 = some (.decBtn 0 0) ∧ decodeTableWord 24 0x37 =
      some (.decBtnAccIrExt 0 0 0 0 0 (grp 0 0 0 0 0) (grp 0 0 0 0 0)) ∧
    decodeTableWord 8 0x05 = some (.rumble false) ∧ decodeTableWord 8 0x3D = some (.decUnknown 0x3D) ∧
    decodeTableWord 0 0 = some .decEmpty := by decide
/-- A placed row is what the first step runs. -/
theorem test_placed_word : traceOf (step (State.reset.withFetchWord 8 0x04)) = some [.sent (pad [0x11, 0x00])] := by decide
theorem test_placed_report : repliesOf (step (State.reset.withFetchWord 32 0x9F000020)) =
    some [.readOk (some (.leds 9))] := by decide

/-! ### The report decoder -/

/-- V-L1, rows 4, 6 and 11: the flags alone; and unused bits set none. -/
theorem test_dec_btn_flags : decodeButtons refCfg 0x08 0x00 = { noButtons with up := true } ∧
    decodeButtons refCfg 0x00 0x01 = { noButtons with two := true } ∧
    decodeButtons refCfg 0x00 0x80 = { noButtons with home := true } ∧ decodeButtons refCfg 0xE0 0x60 = noButtons := by
  decide
/-- V-D6c: one byte short gives a diagnostic and no event. -/
theorem test_dec_btn_short : report [0x30, 0x08] 2 = ([], some (.short 0x30 2)) := by decide
/-- V-D1. -/
theorem test_dec_btn_acc : report [0x31, 0x60, 0x20, 0x80, 0x81, 0x7F] 22 =
    ([.buttons noButtons, .accel 3 4 (-2)], none) := by decide
/-- V-D4: the upper bounds, x with two low bits and y and z with one. -/
theorem test_dec_btn_acc_max : report [0x31, 0x60, 0x60, 0xFF, 0xFF, 0xFF] 22 =
    ([.buttons noButtons, .accel 257 256 256], none) := by decide
/-- V-D7. -/
theorem test_dec_btn_acc_ir_ext : report [0x37, 0x68, 0xC0, 0x90, 0x70, 0x80, 0x10, 0x20, 0x00, 0x30, 0x40, 0xFF, 0xFF, 0x0B,
    0x7F, 0x01] 16 =
    ([.buttons { noButtons with up := true, home := true }, .accel 35 (-32) 2,
      .ir { s0 := obj 0x010 0x020, s1 := obj 0x030 0x040, s2 := none, s3 := obj 0x37F 0x201 }], none) := by decide
/-- V-D11. -/
theorem test_dec_btn_acc_ir_ext_short : report [0x37] 15 = ([], some (.short 0x37 15)) := by decide
/-- V-D9. -/
theorem test_dec_btn_ir_ext : report [0x36, 0x01, 0x10, 0x05, 0x06, 0x50, 0x07, 0x08, 0xFF, 0xFF, 0x00, 0xFF, 0xFF] 13 =
    ([.buttons { noButtons with left := true, minus := true },
      .ir { s0 := obj 0x105 0x106, s1 := obj 0x007 0x008, s2 := none, s3 := none }], none) := by decide
/-- V-D12. -/
theorem test_dec_btn_ir_ext_short : report [0x36] 12 = ([], some (.short 0x36 12)) := by decide
/-- V-I1, V-I3 and V-I5: presence, and each pair of high bits. -/
theorem test_ir_groups : slotA refCfg (grp 0xFF 0xFE 0x30 0 0) = obj 0x3FF 0x0FE ∧
    slotB refCfg (grp 0xFF 0xFE 0x30 0 0) = obj 0 0 ∧ slotB refCfg (grp 0 0 0xFF 0 0) = obj 0x300 0x300 ∧
    slotA refCfg (grp 0 0xFF 0xC0 0xFF 0xFF) = obj 0 0x3FF ∧ slotB refCfg (grp 0 0xFF 0xC0 0xFF 0xFF) = none := by decide
/-- V-D15 and V-D16: the high nibble only. -/
theorem test_dec_status : report [0x20, 0x12, 0x34, 0x0F] 22 = ([.leds 0], none) ∧
    report [0x20, 0, 0, 0xF1] 22 = ([.leds 15], none) := by decide
/-- V-D17. -/
theorem test_dec_status_short : report [0x20, 0, 0, 0xF1] 3 = ([], some (.short 0x20 3)) := by decide
/-- V-R5: an acknowledgement answers none and logs nothing. -/
theorem test_dec_ack : (next? (step (reading State.reset [0x22] 22))).map (fun t => (t.replies, t.diag, t.queue)) =
    some ([.readOk none], [], []) := by decide
/-- V-D18 as a read. -/
theorem test_dec_read_result : (next? (step (reading State.reset [0x21, 1, 2, 3] 1))).map (fun t => (t.replies, t.diag)) =
    some ([.readOk none], []) := by decide
/-- V-D20 as a read: the record is logged. -/
theorem test_dec_unknown : (next? (step (reading State.reset [0x3D] 22))).map (fun t => (t.replies, t.diag)) =
    some ([.readOk none], [.unknownTag 0x3D]) := by decide
/-- V-D23 as a read. -/
theorem test_dec_empty : (next? (step (reading State.reset [0x30] 0))).map (fun t => (t.replies, t.diag)) =
    some ([.readOk none], [.empty]) := by decide
/-- V-L6, the first read: the first event is answered and the other two wait. -/
theorem test_read_first_of_three : (next? (step (reading State.reset [0x37, 0x08, 0x80, 0x80, 0x80, 0x80, 0x10, 0x20, 0x00,
    0x30, 0x40, 0xFF, 0xFF, 0x00, 0xFF, 0xFF] 22))).map (fun t => (t.replies, t.queue)) =
    some ([.readOk (some (.buttons { noButtons with up := true, home := true }))],
      [.accel 0 0 0, .ir { s0 := obj 0x010 0x020, s1 := obj 0x030 0x040, s2 := none, s3 := none }]) := by decide

/-! ### The command encoder -/

/-- V-E8. -/
theorem test_mode : traceOf (step (writing (flag true) [0x01, 0x03])) = some [.sent (pad [0x12, 0x01, 0x36])] := by decide
/-- V-E11. -/
theorem test_leds : traceOf (step (writing (flag true) [0x04, 0x05])) = some [.sent (pad [0x11, 0x51])] := by decide
/-- V-E10. -/
theorem test_leds_all : traceOf (step (writing (flag false) [0x04, 0x0F])) = some [.sent (pad [0x11, 0xF0])] := by decide
/-- V-E12 and V-E14: the packet carries the new flag. -/
theorem test_rumble : traceOf (step (writing (flag false) [0x05, 0x01])) = some [.sent (pad [0x10, 0x01])] ∧
    traceOf (step (writing (flag true) [0x05, 0x00])) = some [.sent (pad [0x10, 0x00])] := by decide
/-- V-S9: a failing packet, and the flag keeps its new value. -/
theorem test_rumble_fails :
    (next? (step { writing (flag false) [0x05, 0x01] with sendOk := [false] })).map
      (fun t => (t.rumble, t.session, t.replies, t.trace)) =
    some (true, .closed .transport, [.error (.transportWrite 0)], [.attempted (pad [0x10, 0x01])]) := by decide
/-- V-L4, step 4. -/
theorem test_spken : traceOf (step (writing (flag true) [0x06, 0x01])) = some [.sent (pad [0x14, 0x05])] := by decide
/-- P4, steps 3 and 6. -/
theorem test_spkmute : traceOf (step (writing (flag true) [0x07, 0x00])) = some [.sent (pad [0x19, 0x01])] ∧
    traceOf (step (writing (flag true) [0x07, 0x01])) = some [.sent (pad [0x19, 0x05])] := by decide
/-- V-E1 and V-E2. -/
theorem test_feature : traceOf (exec (.feature .irPixClk true) (flag false)) = some [.sent (pad [0x13, 0x04])] ∧
    traceOf (exec (.feature .irPixClk false) (flag true)) = some [.sent (pad [0x13, 0x01])] := by decide
/-- V-E4: the 17th byte is dropped. -/
theorem test_wreg_capped :
    traceOf (exec (.wreg 0x123456 ((List.range 17).map fun k => BitVec.ofNat 8 k)) (flag false)) =
    some [.sent [0x16, 0x04, 0x12, 0x34, 0x56, 0x10, 0x00, 0x01, 0x02, 0x03, 0x04, 0x05, 0x06, 0x07, 0x08, 0x09, 0x0A, 0x0B,
      0x0C, 0x0D, 0x0E, 0x0F], .wait .wreg] := by decide
/-- V-E6: a wider address is reduced. -/
theorem test_wreg_wide : traceOf (exec (.wreg 0x1B00030 [0x08]) (flag false)) =
    some [.sent (pad [0x16, 0x04, 0xB0, 0x00, 0x30, 0x01, 0x08]), .wait .wreg] := by decide
/-- V-C1. -/
theorem test_cmd_reserved : repliesOf (step (writing State.reset [0x00])) = some [.error (.badCommand [0x00])] := by decide
/-- R218: on a closed session the same word raises E_CLOSED. -/
theorem test_cmd_reserved_closed : repliesOf (step (writing dead [0x00])) = some [.error .closed] := by decide

/-! ### The sequencer -/

/-- V-S7. -/
theorem test_spkdata : traceOf (step (writing (flag true) (0x08 :: samples))) =
    some [.sent ([0x18, 0xA1] ++ samples), .wait .spk] := by decide
/-- V-S5. -/
theorem test_iroff : traceOf (step (writing (flag false) [0x03])) =
    some [.sent (pad [0x1A, 0x00]), .sent (pad [0x13, 0x00])] := by decide
/-- V-S1. -/
theorem test_iron : traceOf (step (writing (flag false) [0x02, 0x00, 0x02])) =
    some [.sent (pad [0x13, 0x04]), .sent (pad [0x1A, 0x04]), .sent (pad [0x16, 0x04, 0xB0, 0x00, 0x30, 0x01, 0x08]),
      .wait .wreg, .wait .ircal,
      .sent (pad [0x16, 0x04, 0xB0, 0x00, 0x00, 0x09, 0x02, 0x00, 0x00, 0x71, 0x01, 0x00, 0xAA, 0x00, 0x64]), .wait .wreg,
      .sent (pad [0x16, 0x04, 0xB0, 0x00, 0x1A, 0x02, 0x63, 0x03]), .wait .wreg,
      .sent (pad [0x16, 0x04, 0xB0, 0x00, 0x33, 0x01, 0x01]), .wait .wreg,
      .sent (pad [0x16, 0x04, 0xB0, 0x00, 0x30, 0x01, 0x08]), .wait .wreg] := by decide
/-- V-S8: `WFAIL 5` is the fourth packet. -/
theorem test_iron_fails :
    (next? (step { writing (flag false) [0x02, 0x00, 0x02] with sendOk := [true, true, true, false] })).map
      (fun t => (t.session, t.seq, t.replies, t.trace.drop 3)) =
    some (.closed .transport, .idle, [.error (.transportWrite 5)], [.wait .wreg, .wait .ircal,
      .attempted (pad [0x16, 0x04, 0xB0, 0x00, 0x00, 0x09, 0x02, 0x00, 0x00, 0x71, 0x01, 0x00, 0xAA, 0x00, 0x64])]) := by
  decide

/-! ### The session -/

/-- V-R1. -/
theorem test_read_fails :
    (next? (step { State.reset with calls := [.read], inbox := [.fail] })).map (fun t => (t.session, t.replies, t.diag)) =
    some (.closed .transport, [.error .transportRead], []) := by decide
/-- V-R2 and V-R4: a closed session takes nothing from the transport and keeps RUMBLE. -/
theorem test_closed : (next? (step (reading dead [0x22] 22))).map (fun t => (t.replies, t.inbox.length)) =
      some ([.error .closed], 1) ∧
    (next? (step (writing { dead with rumble := true } [0x05, 0x00]))).map (fun t => (t.replies, t.rumble, t.trace)) =
      some ([.error .closed], true, []) := by decide
/-- V-R6: a queued event is answered without a transport read. -/
theorem test_read_queued :
    (next? (step { queued with calls := [.read], inbox := [.fail] })).map (fun t => (t.replies, t.inbox, t.queue, t.session))
    = some ([.readOk (some (.accel 0 0 0))], [.fail], [], .isOpen) := by decide
/-- V-R8, V-R9, and V-R10 with the reset state. -/
theorem test_open : openSessions refCfg [] = .error .deviceNotFound ∧
    openSessions { refCfg with openVariant := .multi } [] = .sessions [] ∧
    openSessions refCfg [7, 8] = .sessions [{ handle := 7, core := State.reset }] := by decide
/-- R211, R217: the numbers. -/
theorem test_codes : ErrCode.deviceNotFound.number = 1 ∧ (Err.transportWrite 3).code.number = 2 ∧
    Err.closed.code.number = 3 ∧ (Err.badCommand []).code.number = 4 ∧ (Diag.unknownTag 0).code = 0x01 ∧
    (Diag.short 0 0).code = 0x02 ∧ Diag.empty.code = 0x03 := by decide

/-! ### Witnesses: states and operands that meet the hypotheses of the statements, clause by clause

Each theorem is named after its statement in Sys2Proof/Certificates/Slice0/Obligations.lean. -/

/-- The combined report of V-L6. -/
def combined : List Byte := [0x37, 0x08, 0x80, 0x80, 0x80, 0x80, 0x10, 0x20, 0x00, 0x30, 0x40, 0xFF, 0xFF, 0x00, 0xFF, 0xFF]

/-- A configuration with settle durations. -/
def timedCfg : Cfg := { refCfg with tWreg := some 50, tIrcal := some 20, tSpk := some 6 }

/-- A session of it whose transport accepts everything. -/
def timed : State := State.opened timedCfg

theorem test_ok_word : okCommandWord [0x01, 0x03] := .inl ⟨rfl, 0x03, rfl, by decide⟩

theorem test_not_ok_word : ¬ okCommandWord [0x01, 0x04] := by
  rintro (⟨_, m, hm, h⟩ | ⟨h, _⟩ | ⟨h, _⟩ | ⟨h, _⟩ | ⟨h, _⟩ | ⟨h, _⟩)
  · injection hm with hm
    subst hm
    exact absurd h (by decide)
  all_goals exact absurd h (by decide)

theorem test_witness_decode_of_encode : refCfg.wf = true ∧ WellFormed refCfg (.wreg 0xFFFFFF (List.replicate 16 1)) = true ∧
    WellFormed refCfg (.wreg 0 [0]) = true ∧ WellFormed refCfg (.cmdReserved 0x00 []) = true := by decide

theorem test_witness_decoded_well_formed : ∃ i, refCfg.wf = true ∧
    decode refCfg (.output (pad [0x16, 0x04, 0xFF, 0xFF, 0xFF, 0x01, 0xAB])) = .instr i := ⟨_, by decide, rfl⟩

theorem test_witness_merged_micro_op : ∃ p, refCfg.wf = true ∧ WellFormed refCfg (.wreg 0xFFFFFF [0xAB]) = true ∧
    encode refCfg (.wreg 0xFFFFFF [0xAB]) = .output p := ⟨_, by decide, by decide, rfl⟩

/-- A refused word and an accepted one. -/
theorem test_witness_ill_formed_words : (∃ rest, (writing State.reset [0x01, 0x04]).seq = .idle ∧
      (writing State.reset [0x01, 0x04]).calls = .write [0x01, 0x04] :: rest ∧ ¬ okCommandWord [0x01, 0x04]) ∧
    ∃ rest t, (writing State.reset [0x01, 0x03]).seq = .idle ∧
      (writing State.reset [0x01, 0x03]).calls = .write [0x01, 0x03] :: rest ∧ okCommandWord [0x01, 0x03] ∧
      step (writing State.reset [0x01, 0x03]) = .next t :=
  ⟨⟨_, rfl, rfl, test_not_ok_word⟩, _, _, rfl, rfl, test_ok_word, rfl⟩

theorem test_witness_reserved : (0x00 : Byte).toNat = 0 ∧ 9 ≤ (0x09 : Byte).toNat ∧ 9 ≤ (0xFF : Byte).toNat ∧
    State.reset.session = .isOpen := by decide

theorem test_witness_step_runs : (∃ rest i, (writing State.reset [0x03]).seq = .idle ∧
      (writing State.reset [0x03]).calls = .write [0x03] :: rest ∧ decode refCfg (.command [0x03]) = .instr i) ∧
    (∃ rest inbox i, (reading State.reset [0x22] 1).seq = .idle ∧ (reading State.reset [0x22] 1).calls = .read :: rest ∧
      (reading State.reset [0x22] 1).session = .isOpen ∧ (reading State.reset [0x22] 1).queue = [] ∧
      (reading State.reset [0x22] 1).inbox = .packet (pad [0x22]) 1 :: inbox ∧
      decode refCfg (.input (pad [0x22]) 1) = .instr i) ∧
    ∃ prog i, (State.reset.setSeq (.run (progIroff refCfg) 1)).seq = .run prog i :=
  ⟨⟨_, _, rfl, rfl, rfl⟩, ⟨_, _, _, rfl, rfl, rfl, rfl, rfl, rfl⟩, _, _, rfl⟩

theorem test_witness_placed_words : (∃ i word, decode refCfg (tableWire refCfg 8 0x03) = .instr i ∧
      tableWire refCfg 8 0x03 = .command word) ∧
    (∃ i buf n, decode refCfg (tableWire refCfg 8 0x22) = .instr i ∧ tableWire refCfg 8 0x22 = .input buf n) ∧
    ∃ i pkt, decode refCfg (tableWire refCfg 16 0x0413) = .instr i ∧ tableWire refCfg 16 0x0413 = .output pkt :=
  ⟨⟨_, _, rfl, rfl⟩, ⟨_, _, _, rfl, rfl⟩, _, _, rfl, rfl⟩

theorem test_witness_waiting : step State.reset = .fault .awaitingCaller ∧
    step { State.reset with calls := [.read] } = .fault .awaitingTransport := ⟨rfl, rfl⟩

/-- A started command, and a program at a packet that is accepted, at one that fails, at a wait and at its end. -/
theorem test_witness_sequencer : State.reset.session = .isOpen ∧ program refCfg .iroff ≠ [] ∧
    (∃ p, (progWreg refCfg 0 [1])[0]? = some (.pkt p)) ∧ State.reset.sendOk.headD true = true ∧
    ({ State.reset with sendOk := [false] } : State).sendOk.headD true = false ∧
    (∃ k, (progWreg refCfg 0 [1])[1]? = some (.wait k)) ∧
    (State.reset.setSeq (.run (progIroff refCfg) 2)).seq = .run (progIroff refCfg) (progIroff refCfg).length :=
  ⟨rfl, by decide, ⟨_, rfl⟩, rfl, rfl, ⟨_, rfl⟩, rfl⟩

/-- An open session: the hypothesis of every statement on an instruction's result. -/
theorem test_witness_open_session : State.reset.session = .isOpen ∧ samples.length = 20 := by decide

/-- Each branch of the dispatch, one byte short and at its required length. -/
theorem test_witness_dispatch : refCfg.wf = true ∧ (0x3D : Byte) ∉ refCfg.itag.toList ∧
    report [0x30] 2 = ([], some (.short 0x30 2)) ∧ (report [0x30] 3).1.length = 1 ∧
    report [0x31] 5 = ([], some (.short 0x31 5)) ∧ (report [0x31] 6).1.length = 2 ∧
    report [0x37] 15 = ([], some (.short 0x37 15)) ∧ (report [0x37] 16).1.length = 3 ∧
    report [0x36] 12 = ([], some (.short 0x36 12)) ∧ (report [0x36] 13).1.length = 2 ∧
    report [0x20] 3 = ([], some (.short 0x20 3)) ∧ (report [0x20] 4).1.length = 1 ∧
    report [0x21] 1 = ([], none) ∧ report [0x22] 1 = ([], none) := by decide

/-- Two buffers that differ from the count on. -/
theorem test_witness_below_the_count : pad [0x30, 1, 2, 3] ≠ pad [0x30, 1, 2, 4] ∧
    ∀ j, j < min 3 refCfg.pktLen → byteAt (pad [0x30, 1, 2, 3]) j = byteAt (pad [0x30, 1, 2, 4]) j := by decide

/-- Two reports that differ in unused bits of B1 and B2 and in an extension byte. -/
theorem test_witness_ignored_bits : refCfg.wf = true ∧ byteAt (pad [0x30, 0xE8, 0x60, 7]) 0 = branchTag refCfg .btn ∧
    byteAt (pad [0x30, 0x08]) 0 = byteAt (pad [0x30, 0xE8, 0x60, 7]) 0 ∧
    (∀ j, 3 ≤ j → j < reqlen refCfg .btn → byteAt (pad [0x30, 0x08]) j = byteAt (pad [0x30, 0xE8, 0x60, 7]) j) ∧
    ∀ b i, (buttonUses refCfg b i ∨
        ((InBranch.btn = .btnAcc ∨ InBranch.btn = .btnAccIrExt) ∧ axisUses refCfg b i)) →
      (btnByte (byteAt (pad [0x30, 0x08]) 1) (byteAt (pad [0x30, 0x08]) 2) b).getLsbD i =
        (btnByte (byteAt (pad [0x30, 0xE8, 0x60, 7]) 1) (byteAt (pad [0x30, 0xE8, 0x60, 7]) 2) b).getLsbD i := by
  refine ⟨by decide, by decide, by decide, fun j h h' => ?_, ?_⟩
  · exact absurd h' (by simp [reqlen]; omega)
  · rintro b i (⟨e, he, rfl, hm⟩ | ⟨h | h, _⟩)
    · by_cases hi : i < 8
      · have key : ∀ e ∈ refCfg.btn.toList, ∀ i : Fin 8, e.mask.getLsbD i = true →
            (btnByte 0x08 0x00 e.byte).getLsbD i = (btnByte 0xE8 0x60 e.byte).getLsbD i := by decide
        exact key e he ⟨i, hi⟩ hm
      · rw [BitVec.getLsbD_of_ge _ _ (by omega)] at hm
        exact absurd hm (by decide)
    · exact absurd h (by decide)
    · exact absurd h (by decide)

/-- Both ends of the coarse byte. -/
theorem test_witness_coarse : (0x00 : Byte).toNat < 255 ∧ (0xFE : Byte).toNat < 255 ∧ ¬ (0xFF : Byte).toNat < 255 := by
  decide

/-- A present and an absent object in each place. -/
theorem test_witness_ir_slots : slotA refCfg (grp 0xFF 0xFE 0 0 0) = obj 0xFF 0xFE ∧
    slotB refCfg (grp 0 0 0x0F 0xFF 0xFE) = obj 0x3FF 0x3FE ∧ slotA refCfg (grp 0xFF 0xFF 0 0 0) = none ∧
    slotB refCfg (grp 0 0 0 0xFF 0xFF) = none := by decide

/-- V-L3, for every mode. -/
theorem test_witness_mode_round_trip : ∀ m, ∃ t it p, State.reset.cfg.wf = true ∧ State.reset.session = .isOpen ∧
    exec (.mode m) State.reset = .next t ∧ t.trace = State.reset.trace ++ [it] ∧ it.packet? = some p ∧
    byteAt (pad [modeTag refCfg m]) 0 = byteAt p 2 ∧ State.reset.cfg.pktLen ≤ 22 := by
  intro m
  cases m <;> exact ⟨_, _, _, by decide, rfl, rfl, rfl, rfl, rfl, by decide⟩

theorem test_witness_merge : 2 ≤ ([0x12, 0x00] : Packet).length := by decide

/-- The operand ranges at their ends. -/
theorem test_witness_operands : 3 < (4 : Byte).toNat ∧ 3 < (0xFF : Byte).toNat ∧ (15 : Byte).toNat ≤ 15 ∧
    15 < (16 : Byte).toNat ∧ 1 < (2 : Byte).toNat ∧ (2 : Byte).toNat ≤ 2 ∧ (6 : Byte).toNat ≤ 6 ∧ 2 < (3 : Byte).toNat ∧
    6 < (7 : Byte).toNat ∧ (samples.drop 1).length ≠ 20 ∧ samples.length = 20 := by decide

/-- IRON: all seven packets accepted; each of the seven refused. -/
theorem test_witness_iron : refCfg.wf = true ∧ State.reset.accepts 7 = true ∧
    ∀ k : Fin 7, ∃ j : Fin 13, ∃ p, (progIron refCfg .full .custom2)[j.val]? = some (.pkt p) ∧
      packetCount ((progIron refCfg .full .custom2).take j.val) = k.val ∧
      ({ State.reset with sendOk := List.replicate k.val true ++ [false] } : State).accepts k.val = true ∧
      (List.replicate k.val true ++ [false])[k.val]? = some false := by
  refine ⟨by decide, rfl, fun k => ?_⟩
  match k with
  | 0 => exact ⟨0, _, rfl, rfl, rfl, rfl⟩
  | 1 => exact ⟨1, _, rfl, rfl, rfl, rfl⟩
  | 2 => exact ⟨2, _, rfl, rfl, rfl, rfl⟩
  | 3 => exact ⟨5, _, rfl, rfl, rfl, rfl⟩
  | 4 => exact ⟨7, _, rfl, rfl, rfl, rfl⟩
  | 5 => exact ⟨9, _, rfl, rfl, rfl, rfl⟩
  | 6 => exact ⟨11, _, rfl, rfl, rfl, rfl⟩

/-- IROFF: both accepted, the second refused, the first refused. -/
theorem test_witness_iroff : State.reset.accepts 2 = true ∧
    ({ State.reset with sendOk := [true, false] } : State).accepts 2 = false ∧
    ({ State.reset with sendOk := [true, false] } : State).accepts 1 = true ∧
    ({ State.reset with sendOk := [false] } : State).accepts 1 = false := by decide

theorem test_witness_program_packets : ∃ p, refCfg.wf = true ∧ WellFormed refCfg (.spkdata samples) = true ∧
    MicroOp.pkt p ∈ program refCfg (.spkdata samples) := ⟨_, by decide, by decide, List.mem_cons_self ..⟩

theorem test_witness_accepted : State.reset.session = .isOpen ∧ program refCfg (.iron .basic .level1) ≠ [] ∧
    State.reset.accepts (packetCount (program refCfg (.iron .basic .level1))) = true := ⟨rfl, by decide, rfl⟩

/-- Two sessions that differ in what a command may not depend on. -/
theorem test_witness_output_depends : ∃ t t', State.reset.cfg = queued.cfg ∧ State.reset.session = .isOpen ∧
    queued.session = .isOpen ∧ State.reset.rumble = queued.rumble ∧ State.reset.sendOk = queued.sendOk ∧
    State.reset.queue ≠ queued.queue ∧ exec .iroff State.reset = .next t ∧ exec .iroff queued = .next t' :=
  ⟨_, _, rfl, rfl, rfl, rfl, rfl, by decide, rfl, rfl⟩

/-- The four cases of a read. -/
theorem test_witness_read : (∃ code, dead.session = .closed code) ∧ (∃ e q, queued.queue = e :: q) ∧
    (∃ inbox, ({ State.reset with inbox := [.fail] } : State).inbox = .fail :: inbox) ∧
    (reading State.reset combined 22).calls = [.read] ∧ (reading State.reset combined 22).seq = .idle ∧
    ∃ buf n inbox, (reading State.reset combined 22).inbox = .packet buf n :: inbox :=
  ⟨⟨_, rfl⟩, ⟨_, _, rfl⟩, ⟨_, rfl⟩, rfl, rfl, _, _, _, rfl⟩

/-- The three cases of a write. -/
theorem test_witness_write : (writing dead [0x03]).seq = .idle ∧ (writing dead [0x03]).calls = [.write [0x03]] ∧
    (∃ code, (writing dead [0x03]).session = .closed code) ∧ State.reset.session = .isOpen ∧
    ¬ okCommandWord [0x01, 0x04] ∧ okCommandWord [0x01, 0x03] := ⟨rfl, rfl, ⟨_, rfl⟩, rfl, test_not_ok_word, test_ok_word⟩

theorem test_witness_absorbing : ∃ code, dead.session = .closed code ∧ dead.seq = .idle ∧
    2 ≤ ({ dead with calls := [.read, .write [0x03]] } : State).calls.length := ⟨_, rfl, rfl, by decide⟩

/-- A write of a word whose second packet is the first refused, on an open session; a read on a closed session with a
queued event; a queued event with a failing answer behind it; a failing answer; an unknown tag behind a count above the
buffer; and a known tag one byte short. -/
theorem test_witness_first_condition : (∃ i p, decode refCfg (.command [0x03]) = .instr i ∧
      (program refCfg i)[1]? = some (.pkt p) ∧
      ({ writing State.reset [0x03] with sendOk := [true, false] } : State).accepts
        (packetCount ((program refCfg i).take 1)) = true ∧
      ([true, false] : List Bool)[packetCount ((program refCfg i).take 1)]? = some false) ∧
    repliesOf (step { queued with session := .closed .transport, calls := [.read] }) = some [.error .closed] ∧
    repliesOf (step { queued with calls := [.read], inbox := [.fail] }) = some [.readOk (some (.accel 0 0 0))] ∧
    repliesOf (step { State.reset with calls := [.read], inbox := [.fail] }) = some [.error .transportRead] ∧
    0 < min 40 refCfg.pktLen ∧ byteAt (pad [0x3D]) 0 ∉ refCfg.itag.toList ∧
    byteAt (pad [0x37]) 0 = branchTag refCfg .btnAccIrExt ∧ 0 < min 15 refCfg.pktLen ∧
    min 15 refCfg.pktLen < reqlen refCfg .btnAccIrExt :=
  ⟨⟨_, _, rfl, rfl, rfl, rfl⟩, by decide, by decide, by decide, by decide, by decide, by decide, by decide, by decide⟩

/-- V-L6: one packet, three events, three reads. -/
theorem test_witness_reads_in_order : ∃ inbox,
    (reading State.reset combined 22).session = .isOpen ∧ (reading State.reset combined 22).queue = [] ∧
    (reading State.reset combined 22).inbox = .packet (pad combined) 22 :: inbox ∧
    (decodeReport refCfg (pad combined) 22).1.length = 2 + 1 ∧
    ({ reading State.reset combined 22 with calls := [.read, .read, .read] } : State).calls =
      List.replicate (2 + 1) .read ++ [] := ⟨_, rfl, rfl, rfl, by decide, rfl⟩

/-- A read that fills QUEUE to two events. -/
theorem test_witness_queue : ∃ t, step (reading State.reset combined 22) = .next t ∧
    t.inbox ≠ (reading State.reset combined 22).inbox ∧ (reading State.reset combined 22).queue.length ≤ 2 ∧
    t.queue.length = 2 := ⟨_, rfl, by decide, by decide, by decide⟩

/-- A write that sends and a read that decodes; steps of an idle machine, as the frame statements have them. -/
theorem test_witness_write_and_read_step : (∃ t, (writing State.reset [0x04, 0x0F]).seq = .idle ∧
      step (writing State.reset [0x04, 0x0F]) = .next t) ∧
    ∃ t, (reading State.reset [0x20] 22).seq = .idle ∧ step (reading State.reset [0x20] 22) = .next t :=
  ⟨⟨_, rfl, rfl⟩, _, rfl, rfl⟩

/-- The rumble command writes RUMBLE. -/
theorem test_witness_rumble_written : ∃ t, step (writing State.reset [0x05, 0x01]) = .next t ∧
    t.rumble ≠ (writing State.reset [0x05, 0x01]).rumble := ⟨_, rfl, by decide⟩

/-- A failing write closes the session, and so does a failing read. -/
theorem test_witness_closing : (∃ t, step { writing State.reset [0x03] with sendOk := [false] } = .next t ∧
      t.session = .closed .transport) ∧
    ∃ t, step { State.reset with calls := [.read], inbox := [.fail] } = .next t ∧ t.session = .closed .transport :=
  ⟨⟨_, rfl, rfl⟩, _, rfl, rfl⟩

/-- A step that logs a record. -/
theorem test_witness_diag : ∃ t, step (reading State.reset [0x3D] 22) = .next t ∧ t.diag = [.unknownTag 0x3D] :=
  ⟨_, rfl, rfl⟩

/-- The invariant meets a state with two queued events, a closed session and a running program. -/
theorem test_witness_invariant : State.Inv
    { State.reset with
      session := .closed .transport
      queue := [.accel 257 (-256) 0, .leds 15]
      seq := .run (progIron refCfg .full .level5) 13
      trace := [.attempted (pad [0x11, 0x50])] } :=
  ⟨by decide, rfl, by decide, by decide, by decide, by decide⟩

/-- A step from a state that meets the invariant. -/
theorem test_witness_invariant_step : ∃ t, (writing State.reset [0x03]).Inv ∧ step (writing State.reset [0x03]) = .next t :=
  ⟨_, ⟨by decide, rfl, rfl, by decide, rfl, rfl⟩, rfl⟩

/-- A reachable state after a whole operation. -/
theorem test_witness_reachable : ∃ t, Reachable t ∧ t.trace = [.sent (pad [0x11, 0x00])] :=
  ⟨_, .stepped _ _ (.called _ (.write [0x04, 0x00]) (.opened refCfg (by decide))) rfl, by decide⟩

/-- Time stamps of IRON that respect the waits 50, 20 and 6. -/
theorem test_witness_iron_timing : ∃ t stamped, timed.session = .isOpen ∧ timed.accepts 7 = true ∧
    exec (.iron .basic .level3) timed = .next t ∧ t.trace = timed.trace ++ stamped.map Prod.fst ∧
    Admits timed.cfg (fun | .wreg => 50 | .ircal => 20 | .spk => 6) ∧
    RespectsWaits (fun | .wreg => 50 | .ircal => 20 | .spk => 6) 0 stamped ∧
    (∃ x, stamped[2]? = some (x, 0)) ∧ ∃ y, stamped[5]? = some (y, 70) := by
  refine ⟨_, List.zip (programItems false (progIron timedCfg .basic .level3))
    [0, 0, 0, 50, 70, 70, 120, 120, 170, 170, 220, 220, 270], rfl, rfl, rfl, by decide, ?_, ?_, ⟨_, rfl⟩, _, rfl⟩
  · intro k t h
    cases k <;> exact Option.some.inj h
  · simp [RespectsWaits, programItems, progIron, progFeature, progWreg, itemTime]

/-- Time stamps of a speaker packet and the next command that respect the waits; the same of IRON and the next command, and
of a register write run alone. -/
theorem test_witness_trailing_wait : (∃ t u stamped, timed.session = .isOpen ∧ timed.accepts 1 = true ∧
      exec (.spkdata samples) timed = .next t ∧ exec (.leds 1#4) t = .next u ∧ program timed.cfg (.leds 1#4) ≠ [] ∧
      u.trace = timed.trace ++ stamped.map Prod.fst ∧
      Admits timed.cfg (fun | .wreg => 50 | .ircal => 20 | .spk => 6) ∧
      RespectsWaits (fun | .wreg => 50 | .ircal => 20 | .spk => 6) 0 stamped ∧
      (∃ x, stamped[0]? = some (x, 3)) ∧ ∃ y, stamped[2]? = some (y, 9)) ∧
    (∃ t u stamped, timed.accepts 7 = true ∧ exec (.iron .full .custom2) timed = .next t ∧
      exec (.leds 1#4) t = .next u ∧ u.trace = timed.trace ++ stamped.map Prod.fst ∧
      RespectsWaits (fun | .wreg => 50 | .ircal => 20 | .spk => 6) 0 stamped ∧
      (∃ x, stamped[11]? = some (x, 220)) ∧ ∃ y, stamped[13]? = some (y, 270)) ∧
    ∃ t u stamped, exec (.wreg 0 [1]) timed = .next t ∧ exec (.leds 1#4) t = .next u ∧
      u.trace = timed.trace ++ stamped.map Prod.fst ∧
      RespectsWaits (fun | .wreg => 50 | .ircal => 20 | .spk => 6) 0 stamped ∧
      (∃ x, stamped[0]? = some (x, 3)) ∧ ∃ y, stamped[2]? = some (y, 53) := by
  refine ⟨⟨_, _, List.zip [.sent ([0x18, 0xA0] ++ samples), .wait .spk, .sent (pad [0x11, 0x10])] [3, 9, 9], rfl, rfl, rfl,
      rfl, by decide, by decide, ?_, ?_, ⟨_, rfl⟩, _, rfl⟩,
    ⟨_, _, List.zip (programItems false (progIron timedCfg .full .custom2) ++ [.sent (pad [0x11, 0x10])])
      [0, 0, 0, 50, 70, 70, 120, 120, 170, 170, 220, 220, 270, 270], rfl, rfl, rfl, by decide, ?_, ⟨_, rfl⟩, _, rfl⟩,
    _, _, List.zip [.sent (pad [0x16, 0x04, 0, 0, 0, 1, 1]), .wait .wreg, .sent (pad [0x11, 0x10])] [3, 53, 53], rfl, rfl,
    by decide, ?_, ⟨_, rfl⟩, _, rfl⟩
  · intro k t h
    cases k <;> exact Option.some.inj h
  all_goals simp [RespectsWaits, programItems, progIron, progFeature, progWreg, itemTime]

/-- Two sessions, the first of which takes a step. -/
theorem test_witness_sessions : ∃ y' : System, System.stepAt
    { cfg := refCfg, sessions := [{ handle := 1, core := writing State.reset [0x03] }, newSession refCfg 2], openErrors := [] }
    0 = .next y' := ⟨_, rfl⟩

/-- The three cases of `open()`. -/
theorem test_witness_open : refCfg.openVariant = .single ∧
    ({ refCfg with openVariant := .multi } : Cfg).openVariant = .multi := by decide

end Sys2Proof.Tests
end

section
/-! PROOFS. Packets of the internal micro-ops, before and after the egress merge (spec/00_scope.md R7,
spec/30_encoding.md R70, R74, spec/41_encoder.md R131). -/

namespace Sys2Proof

/-! ### Built packets -/

/-- Past the built bytes a packet is zero (R132). -/
theorem allZero_drop_mkpkt (c : Cfg) (bs : List Byte) : allZero ((mkpkt c bs).drop bs.length) = true := by
  rw [mkpkt, List.drop_left]
  exact allZero_zeros _

/-- The bytes of a register write with `b` as its byte 1 (R74). -/
def wregBytes (c : Cfg) (b : Byte) (addr : Nat) (data : List Byte) : List Byte :=
  c.otag.wreg :: b :: (addrBytes addr ++ BitVec.ofNat 8 data.length :: data)

@[simp] theorem length_wregBytes (c : Cfg) (b : Byte) (addr : Nat) (data : List Byte) :
    (wregBytes c b addr data).length = 6 + data.length := by
  simp [wregBytes, addrBytes]
  omega

/-- Up to 16 data bytes go out whole (R135). -/
theorem wregPacket_eq_mkpkt (c : Cfg) (addr : Nat) (data : List Byte) (h : data.length ≤ 16) :
    wregPacket c addr data = mkpkt c (wregBytes c c.wregSub addr data) := by
  simp [wregPacket, wregBytes, Nat.min_eq_left h, List.take_of_length_le h]

/-- An address inside 24 bits is read back from its big-endian bytes (R45). -/
theorem addrAt_wregBytes (c : Cfg) (b : Byte) (addr : Nat) (data : List Byte) (h : addr < 2 ^ 24) :
    addrAt (mkpkt c (wregBytes c b addr data)) = addr := by
  have bytes : addrAt (mkpkt c (wregBytes c b addr data)) =
      addr / 65536 % 256 * 65536 + addr / 256 % 256 * 256 + addr % 256 := by
    simp [addrAt, wregBytes, addrBytes, byteAt, mkpkt]
  rw [bytes]
  omega

theorem data_of_wregBytes (c : Cfg) (b : Byte) (addr : Nat) (data : List Byte) :
    ((mkpkt c (wregBytes c b addr data)).drop 6).take data.length = data := by
  simp [mkpkt, wregBytes, addrBytes]

/-! ### The packet decoder, for any byte 1 that is right but for its rumble bit -/

theorem decode_feature_packet {c : Cfg} (h : c.wf = true) (t : FeatureTag) (on : Bool) (b : Byte)
    (hb : withoutRumble b = if on then c.enable else c.disable) :
    decode c (.output (mkpkt c [featureTagByte c t, b])) = .instr (.feature t on) := by
  obtain ⟨hlookup, hwreg⟩ := lookupFeature_featureTagByte h t
  obtain ⟨hdistinct, -⟩ := c.wf_bytesOne h
  have hlen : (mkpkt c [featureTagByte c t, b]).length = c.pktLen :=
    length_mkpkt c _ (by have := c.wf_layout h; simp; omega)
  have htag : byteAt (mkpkt c [featureTagByte c t, b]) 0 = featureTagByte c t := rfl
  have hone : byteAt (mkpkt c [featureTagByte c t, b]) 1 = b := rfl
  have hzero : allZero ((mkpkt c [featureTagByte c t, b]).drop 2) = true :=
    allZero_drop_mkpkt c [featureTagByte c t, b]
  simp only [decode, decodeOutput, readFeature, hlen, htag, hone, hlookup, hwreg, hzero, hb]
  cases on <;> simp [hdistinct.symm]

theorem wellFormed_wreg {c : Cfg} {addr : Nat} {data : List Byte} :
    WellFormed c (.wreg addr data) = true ↔ addr < 2 ^ 24 ∧ 1 ≤ data.length ∧ data.length ≤ 16 := by
  simp [WellFormed, and_assoc]

theorem decode_wreg_packet {c : Cfg} (h : c.wf = true) (addr : Nat) (data : List Byte) (b : Byte)
    (hw : WellFormed c (.wreg addr data) = true) (hb : withoutRumble b = c.wregSub) :
    decode c (.output (mkpkt c (wregBytes c b addr data))) = .instr (.wreg addr data) := by
  obtain ⟨haddr, hmin, hmax⟩ := wellFormed_wreg.mp hw
  have hlen : (mkpkt c (wregBytes c b addr data)).length = c.pktLen :=
    length_mkpkt c _ (by have := c.wf_layout h; simp; omega)
  have htag : byteAt (mkpkt c (wregBytes c b addr data)) 0 = c.otag.wreg := rfl
  have hone : byteAt (mkpkt c (wregBytes c b addr data)) 1 = b := rfl
  have hcount : (byteAt (mkpkt c (wregBytes c b addr data)) 5).toNat = data.length := by
    change (BitVec.ofNat 8 data.length).toNat = data.length
    rw [BitVec.toNat_ofNat]
    omega
  have hzero : allZero ((mkpkt c (wregBytes c b addr data)).drop (6 + data.length)) = true := by
    simpa using allZero_drop_mkpkt c (wregBytes c b addr data)
  simp [decode, decodeOutput, readWreg, hlen, htag, hone, hb, hcount, hmin, hmax, hzero,
    addrAt_wregBytes c b addr data haddr, data_of_wregBytes]

/-! ### Which instructions are packets -/

/-- A packet encodes a feature toggle or a register write, and no other instruction. -/
theorem encode_output_cases {c : Cfg} {i : Instr} {p : Packet} (h : encode c i = .output p) :
    (∃ t on, i = .feature t on ∧ p = featurePacket c t on) ∨
      ∃ addr data, i = .wreg addr data ∧ p = wregPacket c addr data := by
  cases i with
  | feature t on => exact .inl ⟨t, on, rfl, (Wire.output.inj h).symm⟩
  | wreg addr data => exact .inr ⟨addr, data, rfl, (Wire.output.inj h).symm⟩
  | _ => cases h

end Sys2Proof

namespace Sys2Proof.Machine

/-! ### The egress merge -/

/-- The merge writes the rumble bit and no other bit of the byte (R131). -/
@[simp] theorem withoutRumble_mergeByte (r : Bool) (b : Byte) : withoutRumble (mergeByte r b) = withoutRumble b := by
  revert r b
  decide

/-- A byte that the encoder left clear at bit 0 is recovered from the merged byte (R7). -/
theorem withoutRumble_mergeByte_of_clear (r : Bool) (b : Byte) (h : b.getLsbD 0 = false) :
    withoutRumble (mergeByte r b) = b := by
  rw [withoutRumble_mergeByte, withoutRumble_of_clear b h]

/-- A merged packet is the packet built with its byte 1 merged. -/
theorem merge_mkpkt_eq_mkpkt (c : Cfg) (r : Bool) (tag b : Byte) (rest : List Byte) :
    merge r (mkpkt c (tag :: b :: rest)) = mkpkt c (tag :: mergeByte r b :: rest) := by
  simp [merge, mkpkt]

theorem merge_mkpkt_wregBytes (c : Cfg) (r : Bool) (b : Byte) (addr : Nat) (data : List Byte) :
    merge r (mkpkt c (wregBytes c b addr data)) = mkpkt c (wregBytes c (mergeByte r b) addr data) :=
  merge_mkpkt_eq_mkpkt c r _ b _

/-- Settles O5: the merge changes the rumble bit of byte 1 only, which the encoder leaves clear (R7) and the packet
decoder ignores. -/
theorem mergedMicroOpPacketsDecodeToTheirInstruction :
    Obligations.MergedMicroOpPacketsDecodeToTheirInstruction := by
  intro c i r p hc hw henc
  obtain ⟨-, henable, hdisable, -, hsub, -⟩ := c.wf_bytesOne hc
  rcases encode_output_cases henc with ⟨t, on, rfl, rfl⟩ | ⟨addr, data, rfl, rfl⟩
  · have hclear : (if on then c.enable else c.disable).getLsbD 0 = false := by cases on <;> assumption
    rw [featurePacket, merge_mkpkt_eq_mkpkt]
    exact decode_feature_packet hc t on _ (withoutRumble_mergeByte_of_clear r _ hclear)
  · obtain ⟨-, -, hmax⟩ := wellFormed_wreg.mp hw
    rw [wregPacket_eq_mkpkt c addr data hmax, merge_mkpkt_wregBytes]
    exact decode_wreg_packet hc addr data _ hw (withoutRumble_mergeByte_of_clear r _ hsub)

end Sys2Proof.Machine
end

section
/-! PROOFS. The session's state (spec/10_state.md): the rules for packets, events and words that the invariant rests on, one
rule per state operation, and the statements about a step. -/

namespace Sys2Proof

/-! ### Command words -/

/-- A command word that is an instruction is the reserved row, or a command of its code with the length of its code. -/
theorem decodeCommand_eq_instr {word : List Byte} {i : Instr} (h : decodeCommand word = .instr i) :
    ∃ code ops, word = code :: ops ∧
      ((commandLength code = none ∧ i = .cmdReserved code ops) ∨
        (commandLength code = some (ops.length + 1) ∧ commandOf code ops = some i)) := by
  cases word with
  | nil => cases h
  | cons code ops =>
    refine ⟨code, ops, rfl, ?_⟩
    simp only [decodeCommand] at h
    split at h
    next hk => exact .inl ⟨hk, (Decoded.instr.inj h).symm⟩
    next k hk =>
      split at h
      next hl =>
        split at h
        next j hj => exact .inr ⟨hl ▸ hk, Decoded.instr.inj h ▸ hj⟩
        next => cases h
      next => cases h

/-- A code that has no length is reserved (R76, R81). -/
theorem reservedCode_of_commandLength {code : Byte} (h : commandLength code = none) : reservedCode code = true := by
  revert code
  decide

theorem boolByte_of_boolOfByte {b : Byte} {on : Bool} (h : boolOfByte b = some on) : b = boolByte on := by
  revert b on
  decide

/-- Only code 0x05 is the rumble command (R76). -/
theorem commandOf_eq_rumble {code : Byte} {ops : List Byte} {on : Bool} (h : commandOf code ops = some (.rumble on)) :
    code = 0x05 ∧ ops = [boolByte on] := by
  unfold commandOf at h
  split at h
  case h_5 b hcode =>
    obtain ⟨on', hb, hon⟩ := Option.map_eq_some_iff.mp h
    cases hon
    exact ⟨BitVec.eq_of_toNat_eq hcode, by rw [boolByte_of_boolOfByte hb]⟩
  case h_2 => split at h <;> simp at h
  all_goals simp at h

/-- A command of a code of the table is well-formed if its word has the code's length (R76). -/
theorem wellFormed_of_commandOf {c : Cfg} {code : Byte} {ops : List Byte} {i : Instr}
    (hk : commandLength code = some (ops.length + 1)) (h : commandOf code ops = some i) : WellFormed c i = true := by
  unfold commandOf at h
  split at h
  case h_8 samples hcode =>
    cases h
    simpa [commandLength, hcode, WellFormed, eq_comm] using hk
  case h_2 =>
    split at h
    next => cases h; rfl
    next => cases h
  case h_3 => cases h; rfl
  case h_9 => cases h
  all_goals
    obtain ⟨_, _, rfl⟩ := Option.map_eq_some_iff.mp h
    rfl

theorem wellFormed_of_decodeCommand {c : Cfg} {word : List Byte} {i : Instr} (h : decodeCommand word = .instr i) :
    WellFormed c i = true := by
  obtain ⟨code, ops, -, ⟨hk, rfl⟩ | ⟨hk, hi⟩⟩ := decodeCommand_eq_instr h
  · exact reservedCode_of_commandLength hk
  · exact wellFormed_of_commandOf hk hi

/-- The rumble command's word (R76). -/
theorem decodeCommand_eq_rumble {word : List Byte} {on : Bool} (h : decodeCommand word = .instr (.rumble on)) :
    word = [0x05, boolByte on] := by
  obtain ⟨code, ops, rfl, ⟨-, hi⟩ | ⟨-, hi⟩⟩ := decodeCommand_eq_instr h
  · cases hi
  · obtain ⟨rfl, rfl⟩ := commandOf_eq_rumble hi
    rfl

end Sys2Proof

namespace Sys2Proof.Machine

/-! ### Packets of a program -/

@[simp] theorem length_merge (r : Bool) (p : Packet) : (merge r p).length = p.length := List.length_modify ..

/-- A built packet is well-formed if its bytes fit and its byte 1 leaves the rumble bit clear (R42, R7). -/
theorem MicroOp.ok_mkpkt {c : Cfg} {a b : Byte} {rest : List Byte} (hlen : rest.length + 2 ≤ c.pktLen)
    (hb : b.getLsbD 0 = false) : MicroOp.ok c (.pkt (mkpkt c (a :: b :: rest))) = true := by
  simp only [MicroOp.ok, Bool.and_eq_true, decide_eq_true_eq, Bool.not_eq_true']
  exact ⟨length_mkpkt c _ hlen, hb⟩

theorem progFeature_ok {c : Cfg} (h : c.wf = true) (t : FeatureTag) (on : Bool) :
    (progFeature c t on).all (MicroOp.ok c) = true := by
  obtain ⟨-, henable, hdisable, -⟩ := c.wf_bytesOne h
  have hlen := (c.wf_layout h).1
  have hclear : (if on then c.enable else c.disable).getLsbD 0 = false := by cases on <;> assumption
  have hpkt : MicroOp.ok c (.pkt (featurePacket c t on)) = true := MicroOp.ok_mkpkt (by simp; omega) hclear
  simp [progFeature, hpkt]

theorem progWreg_ok {c : Cfg} (h : c.wf = true) (addr : Nat) (data : List Byte) :
    (progWreg c addr data).all (MicroOp.ok c) = true := by
  obtain ⟨-, -, -, -, hsub, -⟩ := c.wf_bytesOne h
  have hlen := (c.wf_layout h).1
  have hpkt : MicroOp.ok c (.pkt (wregPacket c addr data)) = true :=
    MicroOp.ok_mkpkt (by simp [addrBytes]; omega) hsub
  simp only [progWreg, List.all_cons, hpkt]
  rfl

/-- Every micro-op of a well-formed instruction's program is well-formed (R42, R7). -/
theorem program_ok {c : Cfg} (h : c.wf = true) {i : Instr} (hw : WellFormed c i = true) :
    (program c i).all (MicroOp.ok c) = true := by
  obtain ⟨-, -, -, hmode, -, hspk⟩ := c.wf_bytesOne h
  have hlen := (c.wf_layout h).1
  cases i with
  | mode m => simpa [program, progMode] using MicroOp.ok_mkpkt (by simp; omega) hmode
  | leds mask => simpa [program, progLeds] using MicroOp.ok_mkpkt (by simp; omega) (by simp)
  | rumble on => simpa [program, progRumble] using MicroOp.ok_mkpkt (by simp; omega) (by simp)
  | spken on => exact progFeature_ok h .spkEn on
  | spkmute mute => exact progFeature_ok h .spkMute mute
  | feature t on => exact progFeature_ok h t on
  | wreg addr data => exact progWreg_ok h addr data
  | iroff => simp [program, progIroff, progFeature_ok h]
  | iron m sens => simp [program, progIron, progFeature_ok h, progWreg_ok h, MicroOp.ok]
  | spkdata samples =>
    have hcount : samples.length = 20 := by simpa [WellFormed] using hw
    have hpkt : MicroOp.ok c (.pkt (mkpkt c (c.otag.spkData :: c.spkSub :: samples))) = true :=
      MicroOp.ok_mkpkt (by omega) hspk
    simp only [program, progSpkdata, List.cons_append, List.nil_append, List.all_cons, hpkt]
    rfl
  | _ => rfl

/-! ### Events of a report -/

/-- R100: `v_a` is in [-256, 257]. -/
theorem axisValue_mem_Icc (b1 b2 coarse : Byte) (src : AccSrc) : axisValue b1 b2 coarse src ∈ Set.Icc (-256) 257 := by
  have hc := coarse.isLt
  have hhi := (srcBit b1 b2 src.hi).toNat_le
  have hlo := (srcBit b1 b2 src.lo).toNat_le
  rw [axisValue, Set.mem_Icc]
  omega

/-- R100: a component of [-256, 257] is carried by `s16` without a change. -/
theorem componentOk_ofInt {v : Int} (h : v ∈ Set.Icc (-256) 257) : componentOk (BitVec.ofInt 16 v) = true := by
  obtain ⟨hlo, hhi⟩ := h
  have hcarried : (BitVec.ofInt 16 v).toInt = v := by
    rw [BitVec.toInt_ofInt]
    exact Int.bmod_eq_of_le (by omega) (by omega)
  simp [componentOk, hcarried, hlo, hhi]

theorem decodeAccel_ok (c : Cfg) (b1 b2 ax ay az : Byte) : (decodeAccel c b1 b2 ax ay az).ok = true := by
  simp [decodeAccel, Event.ok, componentOk_ofInt (axisValue_mem_Icc ..)]

theorem decodeLeds_ok (led : Byte) : (decodeLeds led).ok = true := by
  have hnibble := (led.extractLsb' 4 4).isLt
  simp only [decodeLeds, Event.ok, decide_eq_true_eq, BitVec.toNat_setWidth]
  omega

theorem buttonsEvent_ok (c : Cfg) (b1 b2 : Byte) : (buttonsEvent c b1 b2).ok = true := rfl

theorem decodeIr_ok (c : Cfg) (g0 g1 : IrGroup) : (decodeIr c g0 g1).ok = true := rfl

/-- R93: a report has at most three events, each of them well-formed. -/
theorem reportEvents_ok (c : Cfg) (i : Instr) :
    (reportEvents c i).1.length ≤ 3 ∧ (reportEvents c i).1.all Event.ok = true := by
  cases i <;> simp [reportEvents, buttonsEvent_ok, decodeAccel_ok, decodeIr_ok, decodeLeds_ok]

theorem decodeReport_ok (c : Cfg) (buf : Packet) (n : Nat) :
    (decodeReport c buf n).1.length ≤ 3 ∧ (decodeReport c buf n).1.all Event.ok = true := by
  unfold decodeReport
  split
  · exact reportEvents_ok c _
  · simp
  · simp

/-! ### The invariant, one rule per state operation -/

/-- What the caller and the transport have still to supply is no part of the invariant. -/
theorem State.Inv.of_inputs {s : State} (h : s.Inv) (calls : List Call) (inbox : List ReadAnswer)
    (sendOk : List Bool) : State.Inv { s with calls := calls, inbox := inbox, sendOk := sendOk } :=
  ⟨h.cfg_wf, h.session_ok, h.seq_ok, h.queue_short, h.queue_ok, h.trace_ok⟩

theorem State.Inv.reply {s : State} (h : s.Inv) (r : Reply) : (s.reply r).Inv :=
  ⟨h.cfg_wf, h.session_ok, h.seq_ok, h.queue_short, h.queue_ok, h.trace_ok⟩

theorem State.Inv.raise {s : State} (h : s.Inv) (e : Err) : (s.raise e).Inv := h.reply _

theorem State.Inv.setSeq {s : State} (h : s.Inv) {q : Seq} (hq : q.ok s.cfg = true) : (s.setSeq q).Inv :=
  ⟨h.cfg_wf, h.session_ok, hq, h.queue_short, h.queue_ok, h.trace_ok⟩

theorem State.Inv.flagged {s : State} (h : s.Inv) (i : Instr) : (s.flagged i).Inv := by
  cases i <;> exact ⟨h.cfg_wf, h.session_ok, h.seq_ok, h.queue_short, h.queue_ok, h.trace_ok⟩

theorem State.Inv.dropSendAnswer {s : State} (h : s.Inv) : s.dropSendAnswer.Inv := h.of_inputs ..

theorem State.Inv.emit {s : State} (h : s.Inv) {it : TraceItem} (hit : it.ok s.cfg = true) : (s.emit it).Inv :=
  ⟨h.cfg_wf, h.session_ok, h.seq_ok, h.queue_short, h.queue_ok, by simpa [hit] using h.trace_ok⟩

/-- R219: a fatal error keeps the invariant if it is a transport error, as both of R211's are. -/
theorem State.Inv.fatal {s : State} (h : s.Inv) {e : Err} (he : e.code = .transport) : (s.fatal e).Inv :=
  ⟨h.cfg_wf, by simp [Session.ok, he], rfl, h.queue_short, h.queue_ok, h.trace_ok⟩

theorem State.Inv.popReply {s : State} (h : s.Inv) : s.popReply.Inv := by
  rw [State.popReply_eq]
  refine ⟨h.cfg_wf, h.session_ok, h.seq_ok, ?_, ?_, h.trace_ok⟩
  · have := h.queue_short
    simp
    omega
  · exact List.all_eq_true.mpr fun e he => List.all_eq_true.mp h.queue_ok e (List.mem_of_mem_tail he)

/-- R193: a report is taken on an empty queue, and its first event is answered at once. -/
theorem State.Inv.deliver {s : State} (h : s.Inv) (hq : s.queue = []) {evs : List Event} (hlen : evs.length ≤ 3)
    (hok : evs.all Event.ok = true) (d : Option Diag) : (s.deliver evs d).Inv := by
  rw [State.deliver_eq, hq, List.nil_append]
  refine ⟨h.cfg_wf, h.session_ok, h.seq_ok, ?_, ?_, h.trace_ok⟩
  · simp
    omega
  · exact List.all_eq_true.mpr fun e he => List.all_eq_true.mp hok e (List.mem_of_mem_tail he)

/-! ### The invariant and the sequencer -/

/-- A well-formed packet goes out with the fixed length, accepted or not: the merge keeps it (R42, R131). -/
theorem length_merge_of_ok {c : Cfg} {p : Packet} (h : MicroOp.ok c (.pkt p) = true) (r : Bool) :
    (merge r p).length = c.pktLen := by
  rw [length_merge]
  simp only [MicroOp.ok, Bool.and_eq_true, decide_eq_true_eq] at h
  exact h.1

theorem State.Inv.sent {s : State} (h : s.Inv) {p : Packet} (hp : MicroOp.ok s.cfg (.pkt p) = true) :
    (s.dropSendAnswer.emit (.sent (merge s.rumble p))).Inv :=
  h.dropSendAnswer.emit (it := .sent _) (decide_eq_true (length_merge_of_ok hp s.rumble))

theorem State.Inv.attempted {s : State} (h : s.Inv) {p : Packet} (hp : MicroOp.ok s.cfg (.pkt p) = true) (i : Nat) :
    ((s.dropSendAnswer.emit (.attempted (merge s.rumble p))).fatal (.transportWrite i)).Inv :=
  (h.dropSendAnswer.emit (it := .attempted _) (decide_eq_true (length_merge_of_ok hp s.rumble))).fatal rfl

/-- The loop keeps the invariant on a program of well-formed micro-ops. -/
theorem State.Inv.runBody {s : State} (h : s.Inv) {prog : List MicroOp} (hp : prog.all (MicroOp.ok s.cfg) = true)
    (i : Nat) : (s.runBody i prog).Inv := by
  induction prog generalizing s i with
  | nil => exact (h.setSeq rfl).reply _
  | cons m rest ih =>
    obtain ⟨hm, hrest⟩ := Bool.and_eq_true_iff.mp hp
    cases m with
    | wait k => exact ih (h.emit rfl) hrest (i + 1)
    | pkt p =>
      simp only [State.runBody]
      split
      · exact ih (h.sent hm) hrest (i + 1)
      · exact h.attempted hm i

/-- A transition of a running sequencer keeps the invariant: the index stays inside the program (R161). -/
theorem State.Inv.seqStep {s : State} (h : s.Inv) : s.seqStep.Inv := by
  cases hs : s.seq with
  | idle => simpa [State.seqStep, hs] using h
  | run prog i =>
    have hseq := h.seq_ok
    simp only [hs, Seq.ok, Bool.and_eq_true, decide_eq_true_eq] at hseq
    obtain ⟨⟨hlen, -⟩, hprog⟩ := hseq
    have hok {m : MicroOp} (hm : prog[i]? = some m) : MicroOp.ok s.cfg m = true :=
      List.all_eq_true.mp hprog m (List.mem_of_getElem? hm)
    have hnext {m : MicroOp} (hm : prog[i]? = some m) : (Seq.run prog (i + 1)).ok s.cfg = true := by
      have hi : i < prog.length := (List.getElem?_eq_some_iff.mp hm).1
      simp only [Seq.ok, hprog, Bool.and_true, Bool.and_eq_true, decide_eq_true_eq]
      omega
    rcases s.seqStep_cases prog i hs with ⟨-, e⟩ | ⟨k, hm, e⟩ | ⟨p, hm, -, e⟩ | ⟨p, hm, -, e⟩ <;> rw [e]
    · exact (h.setSeq rfl).reply _
    · exact (h.emit rfl).setSeq (hnext hm)
    · exact (h.sent (hok hm)).setSeq (hnext hm)
    · exact h.attempted (hok hm) i

/-- Settles O52: by the cases of a step. A command's program is well-formed because its word decoded, a report has at
most three events, and every other operation has its rule. -/
theorem everyStepKeepsTheInvariant : Obligations.EveryStepKeepsTheInvariant := by
  intro s t h hstep
  rcases step_cases s t hstep with ⟨prog, i, -, rfl⟩ | ⟨-, word, rest, -, hwrite⟩ | ⟨-, rest, -, hread⟩
  · exact h.seqStep
  · have hcalls := h.of_inputs rest s.inbox s.sendOk
    rcases hwrite with ⟨code, -, rfl⟩ | ⟨-, rfl⟩ | ⟨-, i, hi, -, rfl⟩
    · exact hcalls.raise _
    · exact hcalls.raise _
    · have hprog := program_ok h.cfg_wf (wellFormed_of_decodeCommand hi)
      obtain ⟨hcfg, -⟩ := State.flagged_frame { s with calls := rest } i
      exact (hcalls.flagged i).runBody (by rwa [hcfg]) 0
  · rcases hread with ⟨code, -, rfl⟩ | ⟨-, -, rfl⟩ | ⟨-, -, inbox, -, rfl⟩ | ⟨-, hq, buf, n, inbox, -, rfl⟩
    · exact (h.of_inputs rest s.inbox s.sendOk).raise _
    · exact (h.of_inputs rest s.inbox s.sendOk).popReply
    · exact (h.of_inputs rest inbox s.sendOk).fatal rfl
    · obtain ⟨hlen, hok⟩ := decodeReport_ok s.cfg buf n
      exact (h.of_inputs rest inbox s.sendOk).deliver hq hlen hok _

/-! ### One operation is one step -/

/-- The loop answers the caller exactly once (R210). -/
theorem State.runBody_replies (s : State) (i : Nat) (prog : List MicroOp) :
    ∃ r, (s.runBody i prog).replies = s.replies ++ [r] := by
  rcases s.runBody_end i prog with ⟨-, hr⟩ | ⟨-, j, p, -, -, -, hr⟩ <;> exact ⟨_, hr⟩

/-- Settles O47: by the cases of a step; the loop of a write ends with SEQ idle and one answer. -/
theorem oneStepIsOneWholeOperation : Obligations.OneStepIsOneWholeOperation := by
  intro s t hidle hstep
  rcases step_cases s t hstep with ⟨prog, i, hrun, -⟩ | ⟨-, word, rest, hc, hwrite⟩ | ⟨-, rest, hc, hread⟩
  · simp [hidle] at hrun
  · rcases hwrite with ⟨code, -, rfl⟩ | ⟨-, rfl⟩ | ⟨-, i, -, -, rfl⟩
    · exact ⟨hidle, _, _, rest, rfl, hc, rfl⟩
    · exact ⟨hidle, _, _, rest, rfl, hc, rfl⟩
    · obtain ⟨-, -, -, hseq, -, hcalls, -⟩ :=
        (State.flagged { s with calls := rest } i).runBody_frame 0 (program s.cfg i)
      obtain ⟨r, hr⟩ := (State.flagged { s with calls := rest } i).runBody_replies 0 (program s.cfg i)
      obtain ⟨-, -, -, -, -, hfcalls, -, -, -, hfreplies⟩ := State.flagged_frame { s with calls := rest } i
      exact ⟨hseq, r, _, rest, hr.trans (by rw [hfreplies]), hc, hcalls.trans hfcalls⟩
  · rcases hread with ⟨code, -, rfl⟩ | ⟨-, -, rfl⟩ | ⟨-, -, inbox, -, rfl⟩ | ⟨-, -, buf, n, inbox, -, rfl⟩
    · exact ⟨hidle, _, _, rest, rfl, hc, rfl⟩
    · rw [State.popReply_eq]
      exact ⟨hidle, _, _, rest, rfl, hc, rfl⟩
    · exact ⟨rfl, _, _, rest, rfl, hc, rfl⟩
    · rw [State.deliver_eq]
      exact ⟨hidle, _, _, rest, rfl, hc, rfl⟩

/-- Settles O53: by induction over the ways to reach a state; a step from an idle SEQ is one whole operation, and inputs
touch neither the invariant nor SEQ. -/
theorem reachableSessionsAreIdleAndMeetTheInvariant : Obligations.ReachableSessionsAreIdleAndMeetTheInvariant := by
  intro s hs
  induction hs with
  | opened c hc => exact ⟨⟨hc, rfl, rfl, Nat.zero_le 2, rfl, rfl⟩, rfl⟩
  | stepped s t _ hstep ih =>
    obtain ⟨hinv, hidle⟩ := ih
    exact ⟨everyStepKeepsTheInvariant s t hinv hstep, (oneStepIsOneWholeOperation s t hidle hstep).1⟩
  | called s x _ ih => exact ⟨ih.1.of_inputs _ _ _, ih.2⟩
  | answered s a _ ih => exact ⟨ih.1.of_inputs _ _ _, ih.2⟩
  | accepted s b _ ih => exact ⟨ih.1.of_inputs _ _ _, ih.2⟩

/-! ### A step from what is fetched -/

theorem step_of_done {s t : State} (h : s.fetch = .done t) : step s = .next t := by
  simp only [step, h]

theorem step_of_stuck {s : State} {f : Fault} (h : s.fetch = .stuck f) : step s = .fault f := by
  simp only [step, h]

/-- Bytes that decode run their instruction. -/
theorem step_of_instr {s t : State} {w : Wire} {i : Instr} (h : s.fetch = .bytes w t)
    (hd : decode t.cfg w = .instr i) : step s = exec i t := by
  simp only [step, h, hd]

theorem step_of_reject {s t : State} {w : Wire} {r : DecodeReject} (h : s.fetch = .bytes w t)
    (hd : decode t.cfg w = .reject r) : step s = .next (t.rejected w r) := by
  simp only [step, h, hd]

theorem State.fetch_run {s : State} {prog : List MicroOp} {i : Nat} (h : s.seq = .run prog i) :
    s.fetch = .done s.seqStep := by
  simp only [State.fetch, h]

theorem State.fetch_write {s : State} {word : List Byte} {rest : List Call} (hs : s.seq = .idle)
    (hc : s.calls = .write word :: rest) : s.fetch = .bytes (.command word) { s with calls := rest } := by
  simp only [State.fetch, hs, hc]

theorem State.fetch_report {s : State} {buf : Packet} {n : Nat} {rest : List Call} {inbox : List ReadAnswer}
    (hs : s.seq = .idle) (hc : s.calls = .read :: rest) (hx : s.session = .isOpen) (hq : s.queue = [])
    (hi : s.inbox = .packet buf n :: inbox) :
    s.fetch = .bytes (.input buf n) { s with calls := rest, inbox := inbox } := by
  simp only [State.fetch, hs, hc, hx, State.takeRead, hq, hi]

/-- Settles O8: what is fetched decides what runs. -/
theorem stepRunsTheDecodedInstruction : Obligations.StepRunsTheDecodedInstruction :=
  ⟨fun _ _ _ _ hs hc hd => step_of_instr (State.fetch_write hs hc) hd,
    fun _ _ _ _ _ _ hs hc hx hq hi hd => step_of_instr (State.fetch_report hs hc hx hq hi) hd,
    fun _ _ _ hs => step_of_done (State.fetch_run hs)⟩

/-- Settles O9: each kind of wire is placed where the machine fetches its next work. -/
theorem placedTableWordIsWhatTheNextStepRuns : Obligations.PlacedTableWordIsWhatTheNextStepRuns := by
  intro s nbits w i hd
  refine ⟨fun word hw => ?_, fun buf n hw => ?_, fun pkt hw => ?_⟩ <;> rw [hw] at hd
  · rw [State.withFetchWord, hw]
    exact step_of_instr (State.fetch_write rfl rfl) hd
  · rw [State.withFetchWord, hw]
    exact step_of_instr (State.fetch_report rfl rfl rfl rfl rfl) hd
  · have hplace : s.place (.output pkt) = { s with seq := .run (program s.cfg i) 0 } := by
      simp only [State.place, hd]
    rw [State.withFetchWord, hw, hplace]
    exact step_of_done (State.fetch_run rfl)

/-! ### Where there is no step -/

/-- A step refuses nothing: it stops where nothing is fetched, or has a next state. -/
theorem step_fault_or_next (s : State) : (∃ f, s.fetch = .stuck f ∧ step s = .fault f) ∨ ∃ t, step s = .next t := by
  cases hf : s.fetch with
  | stuck f => exact .inl ⟨f, rfl, step_of_stuck hf⟩
  | done t => exact .inr ⟨t, step_of_done hf⟩
  | bytes w t =>
    cases hd : decode t.cfg w with
    | instr i => exact .inr ⟨_, (step_of_instr hf hd).trans (exec_eq i t)⟩
    | reject r => exact .inr ⟨_, step_of_reject hf hd⟩

theorem step_eq_fault_iff {s : State} {f : Fault} : step s = .fault f ↔ s.fetch = .stuck f := by
  refine ⟨fun h => ?_, step_of_stuck⟩
  rcases step_fault_or_next s with ⟨g, hf, hg⟩ | ⟨t, ht⟩
  · cases hg.symm.trans h
    exact hf
  · cases ht.symm.trans h

/-- Nothing is fetched exactly while the caller (R20) or the transport (R197) is awaited. -/
theorem State.fetch_eq_stuck_iff {s : State} {f : Fault} : s.fetch = .stuck f ↔
    (f = .awaitingCaller ∧ s.seq = .idle ∧ s.calls = []) ∨
    (f = .awaitingTransport ∧ s.seq = .idle ∧ s.calls.head? = some .read ∧ s.session = .isOpen ∧ s.queue = [] ∧
      s.inbox = []) := by
  constructor
  · intro h
    rcases s.fetch_cases with ⟨_, _, _, hf⟩ | ⟨hs, hc, hf⟩ | ⟨_, _, _, _, hf⟩ | ⟨_, _, _, _, _, hf⟩ |
      ⟨_, _, _, _, _, hf⟩ | ⟨rest, hs, hc, hx, hq, hi, hf⟩ | ⟨_, _, _, _, _, _, _, hf⟩ | ⟨_, _, _, _, _, _, _, _, _, hf⟩ <;>
      cases hf.symm.trans h
    · exact .inl ⟨rfl, hs, hc⟩
    · exact .inr ⟨rfl, hs, by simp [hc], hx, hq, hi⟩
  · rintro (⟨rfl, hs, hc⟩ | ⟨rfl, hs, hread, hx, hq, hi⟩)
    · simp only [State.fetch, hs, hc]
    · obtain ⟨rest, hc⟩ := List.head?_eq_some_iff.mp hread
      simp only [State.fetch, hs, hc, hx, State.takeRead, hq, hi]

/-- Settles O10: a step stops only where nothing is fetched, and a state that awaits the transport awaits nothing once
an answer is there. -/
theorem stepStopsOnlyWhileWaiting : Obligations.StepStopsOnlyWhileWaiting := by
  refine ⟨fun s r h => ?_, fun s f => step_eq_fault_iff.trans State.fetch_eq_stuck_iff, fun s a h => ?_⟩
  · rcases step_fault_or_next s with ⟨f, -, hf⟩ | ⟨t, ht⟩
    · cases hf.symm.trans h
    · cases ht.symm.trans h
  · rcases step_fault_or_next { s with inbox := [a] } with ⟨f, hf, -⟩ | hnext
    · obtain ⟨hno, -⟩ | ⟨-, -, hread, -⟩ := State.fetch_eq_stuck_iff.mp (step_eq_fault_iff.mp h)
      · cases hno
      · obtain ⟨-, -, hcalls⟩ | ⟨-, -, -, -, -, hinbox⟩ := State.fetch_eq_stuck_iff.mp hf
        · rw [show s.calls = [] from hcalls] at hread
          cases hread
        · cases hinbox
    · exact hnext

/-! ### What a command depends on -/

/-- The three forms of an instruction's effect on an open session: a command runs its program under its flag, the
reserved row is refused, a report is delivered. -/
theorem openEffect_cases (i : Instr) :
    (openEffect i = fun s => (s.flagged i).runBody 0 (program s.cfg i)) ∨
    ((∀ c, program c i = []) ∧ ∃ word, openEffect i = fun s => s.raise (.badCommand word)) ∨
    ((∀ c, program c i = []) ∧
      openEffect i = fun s => s.deliver (reportEvents s.cfg i).1 (reportEvents s.cfg i).2) := by
  cases i with
  | cmdReserved code ops => exact .inr (.inl ⟨fun _ => rfl, _, rfl⟩)
  | decBtn | decBtnAcc | decBtnAccIrExt | decBtnIrExt | decStatus | decReadResult | decAck | decUnknown | decEmpty =>
    exact .inr (.inr ⟨fun _ => rfl, rfl⟩)
  | _ => exact .inl rfl

/-- What an instruction puts out on an open session: its program's items, from the transport's answers and RUMBLE. -/
theorem openEffect_trace (i : Instr) (s : State) :
    (openEffect i s).trace = s.trace ++ outItems s.sendOk (s.flagged i).rumble (program s.cfg i) := by
  rcases openEffect_cases i with e | ⟨hp, word, e⟩ | ⟨hp, e⟩ <;> rw [e]
  · obtain ⟨-, -, -, -, -, -, -, hsendOk, htrace, -⟩ := s.flagged_frame i
    rw [State.runBody_trace, hsendOk, htrace]
  · simp [hp, outItems]
  · simp [hp, outItems, State.deliver_eq]

/-- RUMBLE at a command's first packet is the command's own or the one before it. -/
theorem State.flagged_rumble_congr (i : Instr) {s s' : State} (h : s.rumble = s'.rumble) :
    (s.flagged i).rumble = (s'.flagged i).rumble := by
  cases i with
  | rumble on => rfl
  | _ => exact h

/-- Settles O35: what an open session puts out is a function of its configuration, RUMBLE and transport answers. -/
theorem commandOutputDependsOnNothingButRumble : Obligations.CommandOutputDependsOnNothingButRumble := by
  intro s s' t t' i hcfg hs hs' hrumble hsendOk ht ht'
  rw [exec_eq, State.whenOpen_isOpen s _ hs] at ht
  rw [exec_eq, State.whenOpen_isOpen s' _ hs'] at ht'
  cases ht
  cases ht'
  refine ⟨_, openEffect_trace i s, ?_⟩
  rw [openEffect_trace i s', hcfg, hsendOk, State.flagged_rumble_congr i hrumble]

/-! ### RUMBLE and SESSION -/

/-- A command leaves RUMBLE alone or is the rumble command (R23). -/
theorem State.flagged_rumble_cases (s : State) (i : Instr) :
    (s.flagged i).rumble = s.rumble ∨ ∃ on, i = .rumble on ∧ (s.flagged i).rumble = on := by
  cases i with
  | rumble on => exact .inr ⟨on, rfl, rfl⟩
  | _ => exact .inl rfl

/-- Settles O44: of all that a step does, only a command's flag writes RUMBLE, and only the rumble command has one. -/
theorem rumbleIsWrittenOnlyByTheRumbleCommand : Obligations.RumbleIsWrittenOnlyByTheRumbleCommand := by
  intro s t hstep
  rcases step_cases s t hstep with ⟨prog, i, -, rfl⟩ | ⟨hidle, word, rest, hc, hwrite⟩ | ⟨-, rest, -, hread⟩
  · exact .inl s.seqStep_frame.2.1
  · rcases hwrite with ⟨code, -, rfl⟩ | ⟨-, rfl⟩ | ⟨hopen, i, hi, -, rfl⟩
    · exact .inl rfl
    · exact .inl rfl
    · obtain ⟨-, hrumble, -⟩ := (State.flagged { s with calls := rest } i).runBody_frame 0 (program s.cfg i)
      rw [hrumble]
      rcases State.flagged_rumble_cases { s with calls := rest } i with hkeep | ⟨on, rfl, hon⟩
      · exact .inl hkeep
      · exact .inr ⟨on, rest, hidle, hopen, decodeCommand_eq_rumble hi ▸ hc, hon⟩
  · left
    rcases hread with ⟨code, -, rfl⟩ | ⟨-, -, rfl⟩ | ⟨-, -, inbox, -, rfl⟩ | ⟨-, -, buf, n, inbox, -, rfl⟩
    · rfl
    · rw [State.popReply_eq]
    · rfl
    · rw [State.deliver_eq]

/-- Settles O46: the two fatal errors of a step are a failing transport read and the first packet that the transport
refuses; everything else leaves SESSION alone. -/
theorem onlyATransportFailureClosesTheSession : Obligations.OnlyATransportFailureClosesTheSession := by
  intro s t hidle hstep
  rcases step_cases s t hstep with ⟨prog, i, hrun, -⟩ | ⟨-, word, rest, hc, hwrite⟩ | ⟨-, rest, hc, hread⟩
  · simp [hidle] at hrun
  · rcases hwrite with ⟨code, -, rfl⟩ | ⟨-, rfl⟩ | ⟨hopen, i, hi, -, rfl⟩
    · exact .inl rfl
    · exact .inl rfl
    · obtain ⟨-, hsession, -, -, -, -, -, hsendOk, -, hreplies⟩ := State.flagged_frame { s with calls := rest } i
      rcases (State.flagged { s with calls := rest } i).runBody_end 0 (program s.cfg i) with
        ⟨hkeep, -⟩ | ⟨hclosed, j, p, hp, hbefore, hrefused, hr⟩
      · exact .inl (hkeep.trans hsession)
      · rw [State.accepts, hsendOk] at hbefore
        rw [hsendOk] at hrefused
        rw [hreplies, Nat.zero_add] at hr
        exact .inr ⟨hopen, hclosed, .inr ⟨word, rest, i, j, p, hc, hi, hp, hbefore, hrefused, hr⟩⟩
  · rcases hread with ⟨code, -, rfl⟩ | ⟨-, -, rfl⟩ | ⟨hopen, hq, inbox, hi, rfl⟩ | ⟨-, -, buf, n, inbox, -, rfl⟩
    · exact .inl rfl
    · rw [State.popReply_eq]
      exact .inl rfl
    · exact .inr ⟨hopen, rfl, .inl ⟨rest, inbox, hc, hq, hi, rfl, rfl⟩⟩
    · rw [State.deliver_eq]
      exact .inl rfl

/-! ### DIAG -/

/-- The operation appends to DIAG, and what it appends and all else it does is the same under every log. -/
def AppendsLog (k : State → State) (s : State) : Prop :=
  ∃ new, ∀ d, k { s with diag := d } = { k s with diag := d ++ new }

/-- An operation that leaves DIAG alone appends no record. -/
theorem AppendsLog.of_nothing {k : State → State} {s : State}
    (h : ∀ d, k { s with diag := d } = { k s with diag := d }) : AppendsLog k s :=
  ⟨[], by simpa using h⟩

/-- Operations that agree on the state under every log append the same records. -/
theorem AppendsLog.congr {k k' : State → State} {s : State} (h : AppendsLog k' s)
    (e : ∀ d, k { s with diag := d } = k' { s with diag := d }) : AppendsLog k s := by
  obtain ⟨new, hnew⟩ := h
  refine ⟨new, fun d => ?_⟩
  rw [e d, hnew d, show k s = k' s from e s.diag]

theorem State.seqStep_withDiag (s : State) (d : List Diag) :
    State.seqStep { s with diag := d } = { s.seqStep with diag := d } := by
  cases hs : s.seq with
  | idle => simp only [State.seqStep, hs]
  | run prog i =>
    cases hm : prog[i]? with
    | none => simp only [State.seqStep, hs, hm]; rfl
    | some m =>
      cases m with
      | wait k => simp only [State.seqStep, hs, hm]; rfl
      | pkt p =>
        simp only [State.seqStep, hs, hm, State.sendAt]
        split <;> rfl

theorem State.runBody_withDiag (s : State) (d : List Diag) (i : Nat) (prog : List MicroOp) :
    State.runBody { s with diag := d } i prog = { s.runBody i prog with diag := d } := by
  induction prog generalizing s i with
  | nil => rfl
  | cons m rest ih =>
    cases m with
    | wait k => exact ih (s.emit (.wait k)) (i + 1)
    | pkt p =>
      simp only [State.runBody]
      split
      · exact ih (s.dropSendAnswer.emit (.sent (merge s.rumble p))) (i + 1)
      · rfl

theorem raise_appendsLog (s : State) (e : Err) : AppendsLog (fun s => s.raise e) s := .of_nothing fun _ => rfl

/-- R192: what a read logs is the report's diagnostic. -/
theorem deliver_appendsLog (s : State) (evs : List Event) (d : Option Diag) :
    AppendsLog (fun s => s.deliver evs d) s :=
  ⟨d.toList, fun log => by simp only [State.deliver_eq]⟩

theorem whenOpen_appendsLog {k : State → State} {s : State} (h : AppendsLog k s) :
    AppendsLog (fun s => s.whenOpen k) s := by
  obtain hx | ⟨code, hx⟩ := s.session_cases
  · exact h.congr fun d => State.whenOpen_isOpen { s with diag := d } k hx
  · exact (raise_appendsLog s .closed).congr fun d => State.whenOpen_closed { s with diag := d } k code hx

theorem State.flagged_withDiag (s : State) (d : List Diag) (i : Instr) :
    State.flagged { s with diag := d } i = { s.flagged i with diag := d } := by
  cases i <;> rfl

theorem openEffect_appendsLog (i : Instr) (s : State) : AppendsLog (openEffect i) s := by
  rcases openEffect_cases i with e | ⟨-, word, e⟩ | ⟨-, e⟩ <;> rw [e]
  · exact .of_nothing fun d => by rw [State.flagged_withDiag, State.runBody_withDiag]
  · exact raise_appendsLog s _
  · exact (deliver_appendsLog s (reportEvents s.cfg i).1 (reportEvents s.cfg i).2).congr fun _ => rfl

theorem rejected_appendsLog (w : Wire) (r : DecodeReject) (s : State) : AppendsLog (fun s => s.rejected w r) s := by
  cases r with
  | short tag n => exact whenOpen_appendsLog (deliver_appendsLog s _ _)
  | _ => exact whenOpen_appendsLog (raise_appendsLog s _)

/-- What is fetched, with another log in the state that is left. -/
def Fetched.withDiag (d : List Diag) : Fetched → Fetched
  | .stuck f => .stuck f
  | .done t => .done { t with diag := d }
  | .bytes w t => .bytes w { t with diag := d }

theorem State.fetch_withDiag (s : State) (d : List Diag) :
    State.fetch { s with diag := d } = s.fetch.withDiag d := by
  rcases s.fetch_cases with ⟨prog, i, hs, hf⟩ | ⟨hs, hc, hf⟩ | ⟨word, rest, hs, hc, hf⟩ | ⟨rest, code, hs, hc, hx, hf⟩ |
    ⟨rest, hs, hc, hx, hq, hf⟩ | ⟨rest, hs, hc, hx, hq, hi, hf⟩ | ⟨rest, inbox, hs, hc, hx, hq, hi, hf⟩ |
    ⟨rest, buf, n, inbox, hs, hc, hx, hq, hi, hf⟩ <;> rw [hf, Fetched.withDiag]
  · rw [← State.seqStep_withDiag]
    exact State.fetch_run hs
  · simp only [State.fetch, hs, hc]
  · exact State.fetch_write hs hc
  · simp only [State.fetch, hs, hc, hx]; rfl
  · obtain ⟨e, q, hq⟩ := List.exists_cons_of_ne_nil hq
    simp only [State.fetch, hs, hc, hx, State.takeRead, hq, State.popReply_eq]
  · simp only [State.fetch, hs, hc, hx, State.takeRead, hq, hi]
  · simp only [State.fetch, hs, hc, hx, State.takeRead, hq, hi]; rfl
  · exact State.fetch_report hs hc hx hq hi

/-- A step under any other log is the same step and appends the same records. -/
theorem step_withDiag {s t : State} (h : step s = .next t) :
    ∃ new, ∀ d, step { s with diag := d } = .next { t with diag := d ++ new } := by
  have hfetch {f : Fetched} (hf : s.fetch = f) (d : List Diag) : State.fetch { s with diag := d } = f.withDiag d := by
    rw [State.fetch_withDiag, hf]
  cases hf : s.fetch with
  | stuck f => cases (step_of_stuck hf).symm.trans h
  | done u =>
    cases (step_of_done hf).symm.trans h
    exact ⟨[], fun d => by simpa using step_of_done (hfetch hf d)⟩
  | bytes w u =>
    cases hd : decode u.cfg w with
    | instr i =>
      cases ((step_of_instr hf hd).trans (exec_eq i u)).symm.trans h
      obtain ⟨new, hnew⟩ := whenOpen_appendsLog (openEffect_appendsLog i u)
      exact ⟨new, fun d => ((step_of_instr (hfetch hf d) hd).trans (exec_eq i _)).trans (congrArg _ (hnew d))⟩
    | reject r =>
      cases (step_of_reject hf hd).symm.trans h
      obtain ⟨new, hnew⟩ := rejected_appendsLog w r u
      exact ⟨new, fun d => (step_of_reject (hfetch hf d) hd).trans (congrArg _ (hnew d))⟩

/-- Settles O48: the step under the log that is there already shows that it only appends. -/
theorem diagnosticsAreAppendedAndInfluenceNothing : Obligations.DiagnosticsAreAppendedAndInfluenceNothing := by
  refine ⟨fun c => rfl, fun s t h => ?_⟩
  obtain ⟨new, hnew⟩ := step_withDiag h
  have hsame : t = { t with diag := s.diag ++ new } := Host.Outcome.next.inj (h.symm.trans (hnew s.diag))
  exact ⟨new, congrArg State.diag hsame, hnew⟩

end Sys2Proof.Machine
end

section
/-! PROOFS. The packets of a program before the merge (spec/00_scope.md R7, spec/20_memory.md R42, spec/41_encoder.md R132). -/

namespace Sys2Proof.Machine

theorem MicroOp.ok_pkt_iff {c : Cfg} {p : Packet} :
    MicroOp.ok c (.pkt p) = true ↔ p.length = c.pktLen ∧ (byteAt p 1).getLsbD 0 = false := by
  simp only [MicroOp.ok, Bool.and_eq_true, decide_eq_true_eq, Bool.not_eq_true']

/-- Settles O32: the packets are among the program's micro-ops, which are all well-formed. -/
theorem programPacketsAreFullAndLeaveTheRumbleBitClear :
    Obligations.ProgramPacketsAreFullAndLeaveTheRumbleBitClear := by
  intro c i p hc hw hp
  have hall := program_ok hc hw
  exact MicroOp.ok_pkt_iff.mp (List.all_eq_true.mp hall _ hp)

end Sys2Proof.Machine
end

section
/-! PROOFS. The decoder and the encoder (spec/30_encoding.md): the three formats of R60, one part for each, and the
statements about encodings. -/

namespace Sys2Proof

/-! ### Input reports -/

/-- No branch asks for more than a full report (R82, R93). -/
theorem reqlen_le_pktLen {c : Cfg} (h : c.wf = true) (br : InBranch) : reqlen c br ≤ c.pktLen := by
  have := c.wf_layout h
  cases br <;> simp only [reqlen] <;> omega

/-- A full-length report with a branch's tag is read as that branch. -/
theorem decode_inputReport_branch {c : Cfg} (h : c.wf = true) (br : InBranch) (rest : List Byte) :
    decode c (inputReport c (branchTag c br :: rest)) =
      .instr (readBranch c (mkpkt c (branchTag c br :: rest)) br) := by
  have hpos : c.pktLen ≠ 0 := by have := c.wf_layout h; omega
  have htag : byteAt (mkpkt c (branchTag c br :: rest)) 0 = branchTag c br := rfl
  simp only [decode, inputReport, decodeInput, decodeClipped, Nat.min_self, hpos, htag, lookupTag_branchTag h br,
    Nat.not_lt.mpr (reqlen_le_pktLen h br), if_false]

/-- A full-length report with a tag of no branch is DEC_UNKNOWN (R110). -/
theorem decode_inputReport_unknown {c : Cfg} (h : c.wf = true) (tag : Byte) (rest : List Byte)
    (ht : lookupTag c tag = none) : decode c (inputReport c (tag :: rest)) = .instr (.decUnknown tag) := by
  have hpos : c.pktLen ≠ 0 := by have := c.wf_layout h; omega
  have htag : byteAt (mkpkt c (tag :: rest)) 0 = tag := rfl
  simp only [decode, inputReport, decodeInput, decodeClipped, Nat.min_self, hpos, htag, ht, if_false]

/-- The two groups of an IR window are read back where the window starts (R64, R65). -/
theorem groupAt_window (c : Cfg) (xs : List Byte) (g0 g1 : IrGroup) (off : Nat) (h : xs.length = off) :
    groupAt (mkpkt c (xs ++ g0.bytes ++ g1.bytes)) off = g0 ∧
      groupAt (mkpkt c (xs ++ g0.bytes ++ g1.bytes)) (off + 5) = g1 := by
  constructor
  · simpa [mkpkt] using groupAt_bytes xs (g1.bytes ++ zeros (c.pktLen - (xs ++ g0.bytes ++ g1.bytes).length)) g0 off h
  · rw [mkpkt, List.append_assoc (xs ++ g0.bytes)]
    exact groupAt_bytes (xs ++ g0.bytes) _ g1 (off + 5) (by simp [h, IrGroup.bytes])

/-- The byte after `xs` is read back at its index. -/
theorem byteAt_mkpkt_last (c : Cfg) (xs : List Byte) (b : Byte) (j : Nat) (h : xs.length = j) :
    byteAt (mkpkt c (xs ++ [b])) j = b := by
  subst h
  simp [byteAt, mkpkt]

/-- Every report is decoded to the instruction it encodes. -/
theorem decode_encode_of_input {c : Cfg} {i : Instr} {buf : Packet} {n : Nat} (hc : c.wf = true)
    (hw : WellFormed c i = true) (h : encode c i = .input buf n) : decode c (encode c i) = .instr i := by
  obtain ⟨-, hacc, -, hnoAcc, -, hled, -⟩ := c.wf_layout hc
  cases i with
  | decBtn b1 b2 => exact decode_inputReport_branch hc .btn [b1, b2]
  | decBtnAcc b1 b2 ax ay az => exact decode_inputReport_branch hc .btnAcc [b1, b2, ax, ay, az]
  | decBtnAccIrExt b1 b2 ax ay az g0 g1 =>
    obtain ⟨hg0, hg1⟩ := groupAt_window c
      ([branchTag c .btnAccIrExt, b1, b2, ax, ay, az] ++ zeros (c.irOffAcc - 6)) g0 g1 c.irOffAcc
      (by simp; omega)
    refine (decode_inputReport_branch hc .btnAccIrExt
      ([b1, b2, ax, ay, az] ++ zeros (c.irOffAcc - 6) ++ g0.bytes ++ g1.bytes)).trans ?_
    exact congrArg₂ (fun x y => Decoded.instr (.decBtnAccIrExt b1 b2 ax ay az x y)) hg0 hg1
  | decBtnIrExt b1 b2 g0 g1 =>
    obtain ⟨hg0, hg1⟩ := groupAt_window c
      ([branchTag c .btnIrExt, b1, b2] ++ zeros (c.irOffNoAcc - 3)) g0 g1 c.irOffNoAcc
      (by simp; omega)
    refine (decode_inputReport_branch hc .btnIrExt
      ([b1, b2] ++ zeros (c.irOffNoAcc - 3) ++ g0.bytes ++ g1.bytes)).trans ?_
    exact congrArg₂ (fun x y => Decoded.instr (.decBtnIrExt b1 b2 x y)) hg0 hg1
  | decStatus led =>
    have hread := byteAt_mkpkt_last c ([branchTag c .status] ++ zeros (c.statusLedByte - 1)) led c.statusLedByte
      (by simp; omega)
    refine (decode_inputReport_branch hc .status (zeros (c.statusLedByte - 1) ++ [led])).trans ?_
    exact congrArg (fun x => Decoded.instr (.decStatus x)) hread
  | decReadResult => exact decode_inputReport_branch hc .readResult []
  | decAck => exact decode_inputReport_branch hc .ack []
  | decUnknown tag =>
    have hnone : lookupTag c tag = none := (lookupTag_eq_none c tag).mpr ((Bool.not_eq_true' _).mp hw)
    exact decode_inputReport_unknown hc tag [] hnone
  | decEmpty => simp only [encode, decode, decodeInput, decodeClipped, Nat.zero_min, if_true]
  | _ => cases h

/-- What an instruction read from a report is: the empty read, an unknown tag, or a branch of R78. -/
theorem decodeInput_eq_instr {c : Cfg} {buf : Packet} {n : Nat} {i : Instr} (h : decodeInput c buf n = .instr i) :
    i = .decEmpty ∨ (∃ tag, lookupTag c tag = none ∧ i = .decUnknown tag) ∨ ∃ br, i = readBranch c buf br := by
  unfold decodeInput decodeClipped at h
  split at h
  next => exact .inl (Decoded.instr.inj h).symm
  next =>
    split at h
    next hnone => exact .inr (.inl ⟨_, hnone, (Decoded.instr.inj h).symm⟩)
    next br _ =>
      split at h
      next => cases h
      next => exact .inr (.inr ⟨br, (Decoded.instr.inj h).symm⟩)

theorem wellFormed_of_decodeInput {c : Cfg} {buf : Packet} {n : Nat} {i : Instr}
    (h : decodeInput c buf n = .instr i) : WellFormed c i = true := by
  rcases decodeInput_eq_instr h with rfl | ⟨tag, hnone, rfl⟩ | ⟨br, rfl⟩
  · rfl
  · exact (Bool.not_eq_true' _).mpr ((lookupTag_eq_none c tag).mp hnone)
  · cases br <;> rfl

/-! ### Operand bytes of command words

Each operand reader finds the operand that a byte is the index of, and finds one exactly in the row's range (R76). -/

theorem modeOfByte_eq_some {b : Byte} {m : ReportingMode} : modeOfByte b = some m ↔ b = modeByte m := by
  cases m <;> revert b <;> decide

theorem irModeOfByte_eq_some {b : Byte} {m : IrMode} : irModeOfByte b = some m ↔ b = irModeIndex m := by
  cases m <;> revert b <;> decide

theorem sensOfByte_eq_some {b : Byte} {x : Sensitivity} : sensOfByte b = some x ↔ b = sensIndex x := by
  cases x <;> revert b <;> decide

theorem maskOfByte_eq_some {b : Byte} {mask : BitVec 4} : maskOfByte b = some mask ↔ b = mask.setWidth 8 := by
  have widen : ∀ b : Byte, b.extractLsb' 4 4 = 0#4 → b = (b.extractLsb' 0 4).setWidth 8 := by decide
  constructor
  · intro h
    obtain ⟨hhigh, rfl⟩ : b.extractLsb' 4 4 = 0#4 ∧ b.extractLsb' 0 4 = mask := by simpa [maskOfByte] using h
    exact widen b hhigh
  · rintro rfl
    exact maskOfByte_zeroExtend mask

theorem boolOfByte_eq_some {b : Byte} {on : Bool} : boolOfByte b = some on ↔ b = boolByte on :=
  ⟨boolByte_of_boolOfByte, fun h => h ▸ boolOfByte_boolByte on⟩

theorem isSome_modeOfByte (b : Byte) : (modeOfByte b).isSome = true ↔ b.toNat ≤ 3 := by
  revert b
  decide

theorem isSome_irModeOfByte (b : Byte) : (irModeOfByte b).isSome = true ↔ b.toNat ≤ 2 := by
  revert b
  decide

theorem isSome_sensOfByte (b : Byte) : (sensOfByte b).isSome = true ↔ b.toNat ≤ 6 := by
  revert b
  decide

theorem isSome_maskOfByte (b : Byte) : (maskOfByte b).isSome = true ↔ b.toNat ≤ 15 := by
  revert b
  decide

theorem isSome_boolOfByte (b : Byte) : (boolOfByte b).isSome = true ↔ b.toNat ≤ 1 := by
  revert b
  decide

/-! ### Command words and their commands -/

theorem decodeCommand_of_commandOf {code : Byte} {ops : List Byte} {i : Instr}
    (hk : commandLength code = some (ops.length + 1)) (h : commandOf code ops = some i) :
    decodeCommand (code :: ops) = .instr i := by
  simp only [decodeCommand, hk, h, if_true]

theorem decodeCommand_of_reserved {code : Byte} (h : reservedCode code = true) (ops : List Byte) :
    decodeCommand (code :: ops) = .instr (.cmdReserved code ops) := by
  simp only [decodeCommand, commandLength_reserved code h]

/-- A command's word is decoded to the command. -/
theorem decodeCommand_of_encode {c : Cfg} {i : Instr} {word : List Byte} (hw : WellFormed c i = true)
    (h : encode c i = .command word) : decodeCommand word = .instr i := by
  cases i with
  | mode | iron | iroff | rumble | spken | spkmute =>
    cases h
    exact decodeCommand_of_commandOf rfl (by simp [commandOf])
  | leds mask =>
    cases h
    exact decodeCommand_of_commandOf rfl (by simp [commandOf, maskOfByte_eq_some])
  | spkdata samples =>
    cases h
    have hlen : samples.length = 20 := of_decide_eq_true hw
    exact decodeCommand_of_commandOf (by rw [hlen]; rfl) rfl
  | cmdReserved code ops =>
    cases h
    exact decodeCommand_of_reserved hw ops
  | _ => cases h

/-- The command found for a code and its operands is encoded as that word (R76). -/
theorem encode_of_commandOf {c : Cfg} {code : Byte} {ops : List Byte} {i : Instr} (h : commandOf code ops = some i) :
    encode c i = .command (code :: ops) := by
  unfold commandOf at h
  split at h
  case h_1 b hcode =>
    obtain rfl : code = 0x01 := BitVec.eq_of_toNat_eq hcode
    obtain ⟨m, hb, rfl⟩ := Option.map_eq_some_iff.mp h
    rw [modeOfByte_eq_some.mp hb, encode]
  case h_2 b b' hcode =>
    obtain rfl : code = 0x02 := BitVec.eq_of_toNat_eq hcode
    split at h
    next m sens hm hsens =>
      cases h
      rw [irModeOfByte_eq_some.mp hm, sensOfByte_eq_some.mp hsens, encode]
    next => cases h
  case h_3 hcode =>
    obtain rfl : code = 0x03 := BitVec.eq_of_toNat_eq hcode
    cases h
    rfl
  case h_4 b hcode =>
    obtain rfl : code = 0x04 := BitVec.eq_of_toNat_eq hcode
    obtain ⟨mask, hb, rfl⟩ := Option.map_eq_some_iff.mp h
    rw [maskOfByte_eq_some.mp hb]
    rfl
  case h_5 b hcode | h_6 b hcode | h_7 b hcode =>
    obtain ⟨on, hb, rfl⟩ := Option.map_eq_some_iff.mp h
    rw [boolOfByte_eq_some.mp hb]
    exact congrArg (fun x => Wire.command [x, boolByte on]) (BitVec.eq_of_toNat_eq hcode).symm
  case h_8 samples hcode =>
    obtain rfl : code = 0x08 := BitVec.eq_of_toNat_eq hcode
    cases h
    rfl
  case h_9 => cases h

/-- An instruction decoded from a command word is encoded as that word. -/
theorem encode_of_decodeCommand {c : Cfg} {word : List Byte} {i : Instr} (h : decodeCommand word = .instr i) :
    encode c i = .command word := by
  obtain ⟨code, ops, rfl, ⟨-, rfl⟩ | ⟨-, hi⟩⟩ := decodeCommand_eq_instr h
  · rfl
  · exact encode_of_commandOf hi

/-- Settles O3: the decoder of command words and the encoder are inverse to each other on well-formed commands. -/
theorem commandWordsAndCommandsCorrespond : Obligations.CommandWordsAndCommandsCorrespond :=
  fun _ _ _ => ⟨fun h => ⟨wellFormed_of_decodeCommand h, encode_of_decodeCommand h⟩,
    fun ⟨hw, h⟩ => decodeCommand_of_encode hw h⟩

/-! ### Packets of the internal micro-ops -/

/-- Every packet of an internal micro-op is decoded to the instruction it encodes: its byte 1 has the rumble bit clear
(R7). -/
theorem decode_encode_of_output {c : Cfg} {i : Instr} {p : Packet} (hc : c.wf = true) (hw : WellFormed c i = true)
    (h : encode c i = .output p) : decode c (encode c i) = .instr i := by
  obtain ⟨-, henable, hdisable, -, hsub, -⟩ := c.wf_bytesOne hc
  rcases encode_output_cases h with ⟨t, on, rfl, -⟩ | ⟨addr, data, rfl, -⟩
  · have hclear : (if on then c.enable else c.disable).getLsbD 0 = false := by cases on <;> assumption
    exact decode_feature_packet hc t on _ (withoutRumble_of_clear _ hclear)
  · obtain ⟨-, -, hmax⟩ := wellFormed_wreg.mp hw
    rw [encode, wregPacket_eq_mkpkt c addr data hmax]
    exact decode_wreg_packet hc addr data _ hw (withoutRumble_of_clear _ hsub)

/-- A packet that is an instruction is full, and a register write or a feature toggle. -/
theorem decodeOutput_eq_instr {c : Cfg} {pkt : Packet} {i : Instr} (h : decodeOutput c pkt = .instr i) :
    pkt.length = c.pktLen ∧ (readWreg c pkt = .instr i ∨ ∃ t, readFeature c t pkt = .instr i) := by
  unfold decodeOutput at h
  split at h
  next => cases h
  next hlen =>
    refine ⟨not_not.mp hlen, ?_⟩
    split at h
    next => exact .inl h
    next =>
      split at h
      next t _ => exact .inr ⟨t, h⟩
      next => cases h

theorem readFeature_eq_instr {c : Cfg} {t : FeatureTag} {pkt : Packet} {i : Instr}
    (h : readFeature c t pkt = .instr i) : ∃ on, i = .feature t on := by
  unfold readFeature at h
  split at h
  next => cases h
  next =>
    split at h
    next => exact ⟨true, (Decoded.instr.inj h).symm⟩
    next =>
      split at h
      next => exact ⟨false, (Decoded.instr.inj h).symm⟩
      next => cases h

/-- A packet read as a register write has a data length of 1 to 16, and that many bytes from byte 6 are the data
(R74). -/
theorem readWreg_eq_instr {c : Cfg} {pkt : Packet} {i : Instr} (h : readWreg c pkt = .instr i) :
    ∃ len, 1 ≤ len ∧ len ≤ 16 ∧ i = .wreg (addrAt pkt) ((pkt.drop 6).take len) := by
  simp only [readWreg] at h
  split at h
  next hchecks =>
    simp only [Bool.and_eq_true, decide_eq_true_eq] at hchecks
    obtain ⟨⟨⟨-, hmin⟩, hmax⟩, -⟩ := hchecks
    exact ⟨_, hmin, hmax, (Decoded.instr.inj h).symm⟩
  next => cases h

theorem addrAt_lt (pkt : Packet) : addrAt pkt < 2 ^ 24 := by
  have h2 := (byteAt pkt 2).isLt
  have h3 := (byteAt pkt 3).isLt
  have h4 := (byteAt pkt 4).isLt
  unfold addrAt
  omega

/-- A full packet holds 16 data bytes, so a register write read from it has all its data (R82). -/
theorem wellFormed_of_decodeOutput {c : Cfg} {pkt : Packet} {i : Instr} (hc : c.wf = true)
    (h : decodeOutput c pkt = .instr i) : WellFormed c i = true := by
  obtain ⟨hfull, hwreg | ⟨t, hfeature⟩⟩ := decodeOutput_eq_instr h
  · obtain ⟨len, hmin, hmax, rfl⟩ := readWreg_eq_instr hwreg
    have hlong : 22 ≤ c.pktLen := (c.wf_layout hc).1
    have hdata : ((pkt.drop 6).take len).length = len := by
      rw [List.length_take, List.length_drop]
      omega
    exact wellFormed_wreg.mpr ⟨addrAt_lt pkt, hdata.symm ▸ hmin, hdata.symm ▸ hmax⟩
  · obtain ⟨on, rfl⟩ := readFeature_eq_instr hfeature
    rfl

/-! ### All formats -/

/-- Settles O2: by the format of the encoding. -/
theorem decodeOfEncodeIsTheInstruction : Obligations.DecodeOfEncodeIsTheInstruction := by
  intro c i hc hw
  cases hwire : encode c i with
  | input buf n => exact hwire ▸ decode_encode_of_input hc hw hwire
  | command word => exact decodeCommand_of_encode hw hwire
  | output p => exact hwire ▸ decode_encode_of_output hc hw hwire

/-- Settles O4: by the format of what arrives. -/
theorem decodedInstructionsAreWellFormed : Obligations.DecodedInstructionsAreWellFormed := by
  intro c w i hc h
  cases w with
  | input buf n => exact wellFormed_of_decodeInput h
  | command word => exact wellFormed_of_decodeCommand h
  | output pkt => exact wellFormed_of_decodeOutput hc h

/-- Settles O1: each word is closed, and the decoder computes its instruction. -/
theorem specWordsDecodeToTheirInstructions : Obligations.SpecWordsDecodeToTheirInstructions :=
  ⟨rfl, rfl, rfl, rfl, rfl, rfl⟩

end Sys2Proof

namespace Sys2Proof.Machine

/-! ### The words R77 calls well-formed -/

/-- A word of the table has its code's length, and a command is found for its operands (R76, R77). -/
theorem okCommandWord_cons_iff (code : Byte) (ops : List Byte) :
    okCommandWord (code :: ops) ↔
      commandLength code = some (ops.length + 1) ∧ (commandOf code ops).isSome = true := by
  constructor
  · rintro (⟨hcode, m, rfl, hm⟩ | ⟨hcode, m, sens, rfl, hm, hsens⟩ | ⟨hcode, rfl⟩ | ⟨hcode, mask, rfl, hmask⟩ |
      ⟨hcode, on, rfl, hon⟩ | ⟨hcode, hlen⟩)
    · simp [commandLength, commandOf, hcode, isSome_modeOfByte, hm]
    · obtain ⟨im, him⟩ := Option.isSome_iff_exists.mp ((isSome_irModeOfByte m).mpr hm)
      obtain ⟨se, hse⟩ := Option.isSome_iff_exists.mp ((isSome_sensOfByte sens).mpr hsens)
      simp [commandLength, commandOf, hcode, him, hse]
    · simp [commandLength, commandOf, hcode]
    · simp [commandLength, commandOf, hcode, isSome_maskOfByte, hmask]
    · rcases hcode with hcode | hcode | hcode <;> simp [commandLength, commandOf, hcode, isSome_boolOfByte, hon]
    · simp [commandLength, commandOf, hcode, hlen]
  · rintro ⟨hk, h⟩
    unfold commandOf at h
    split at h
    case h_1 m hcode => exact .inl ⟨hcode, m, rfl, (isSome_modeOfByte m).mp (by simpa using h)⟩
    case h_2 m sens hcode =>
      split at h
      next him hse =>
        exact .inr (.inl ⟨hcode, m, sens, rfl, (isSome_irModeOfByte m).mp (him ▸ rfl),
          (isSome_sensOfByte sens).mp (hse ▸ rfl)⟩)
      next => cases h
    case h_3 hcode => exact .inr (.inr (.inl ⟨hcode, rfl⟩))
    case h_4 mask hcode =>
      exact .inr (.inr (.inr (.inl ⟨hcode, mask, rfl, (isSome_maskOfByte mask).mp (by simpa using h)⟩)))
    case h_5 on hcode | h_6 on hcode | h_7 on hcode =>
      exact .inr (.inr (.inr (.inr (.inl ⟨by simp [hcode], on, rfl, (isSome_boolOfByte on).mp (by simpa using h)⟩))))
    case h_8 hcode =>
      exact .inr (.inr (.inr (.inr (.inr ⟨hcode, by simpa [commandLength, hcode, eq_comm] using hk⟩))))
    case h_9 => cases h

/-- The well-formed words are the words that decode to an instruction with a program. -/
theorem okCommandWord_iff (word : List Byte) :
    okCommandWord word ↔ ∃ i, decodeCommand word = .instr i ∧ ∀ c, program c i ≠ [] := by
  constructor
  · intro hok
    cases word with
    | nil => exact hok.elim
    | cons code ops =>
      obtain ⟨hk, hsome⟩ := (okCommandWord_cons_iff code ops).mp hok
      obtain ⟨i, hi⟩ := Option.isSome_iff_exists.mp hsome
      have hdec := decodeCommand_of_commandOf hk hi
      rcases decodeCommand_cases (code :: ops) with hprogram | ⟨_, _, hword, hres⟩ | ⟨_, hreject, -⟩
      · exact hprogram
      · cases hword
        cases hdec.symm.trans hres
        have hreserved : reservedCode code = true := wellFormed_of_commandOf (c := refCfg) hk hi
        cases hk.symm.trans (commandLength_reserved code hreserved)
      · cases hdec.symm.trans hreject
  · rintro ⟨i, hdec, hprogram⟩
    obtain ⟨code, ops, rfl, ⟨-, rfl⟩ | ⟨hk, hi⟩⟩ := decodeCommand_eq_instr hdec
    · exact absurd rfl (hprogram refCfg)
    · exact (okCommandWord_cons_iff code ops).mpr ⟨hk, hi ▸ rfl⟩

/-! ### Writes of a word -/

/-- A word that is not well-formed is the reserved row or is rejected, and both refuse it (R77, R81). -/
theorem step_eq_badCommand {s : State} {word : List Byte} {rest : List Call} (hs : s.seq = .idle)
    (hc : s.calls = .write word :: rest) (hbad : ¬ okCommandWord word) :
    step s = .next (State.badCommand { s with calls := rest } word) := by
  have hfetch := State.fetch_write hs hc
  rcases decodeCommand_cases word with hprogram | ⟨code, ops, rfl, hres⟩ | ⟨r, hreject, hrefused⟩
  · exact absurd ((okCommandWord_iff word).mpr hprogram) hbad
  · exact step_of_instr hfetch hres
  · rw [step_of_reject hfetch hreject, hrefused]

/-- A well-formed word answers ok or one error, which is never E_BAD_COMMAND. -/
theorem step_replies_of_ok {s t : State} {word : List Byte} {rest : List Call} (hs : s.seq = .idle)
    (hc : s.calls = .write word :: rest) (hok : okCommandWord word) (ht : step s = .next t) :
    ∃ r, t.replies = s.replies ++ [r] ∧ ∀ w, r ≠ .error (.badCommand w) := by
  obtain ⟨i, hdec, hprogram⟩ := (okCommandWord_iff word).mp hok
  rw [step_of_instr (State.fetch_write hs hc) hdec, exec_eq] at ht
  obtain rfl := Host.Outcome.next.inj ht
  rcases State.whenOpen_cases { s with calls := rest } (openEffect i) with ⟨-, heq⟩ | ⟨code, -, heq⟩ <;> rw [heq]
  · have hflagged : (State.flagged { s with calls := rest } i).replies = s.replies := by
      simp [State.flagged_frame]
    rw [openEffect_program i _ (hprogram _)]
    rcases State.runBody_end (State.flagged { s with calls := rest } i) 0 (program s.cfg i) with
      ⟨-, hreply⟩ | ⟨-, _, _, -, -, -, hreply⟩ <;>
    · rw [hflagged] at hreply
      exact ⟨_, hreply, nofun⟩
  · exact ⟨_, rfl, nofun⟩

/-- Settles O6: an ill-formed word is refused, a well-formed one runs its program, and a micro-op's encoding is no
command word. -/
theorem illFormedCommandWordsAreRefused : Obligations.IllFormedCommandWordsAreRefused := by
  refine ⟨fun s word rest hs hc hbad => ?_, fun s t word w rest hs hc hok ht => ?_,
    fun c word t on addr data => ⟨fun h => ?_, fun h => ?_⟩⟩
  · rw [step_eq_badCommand hs hc hbad, State.badCommand_eq]
  · obtain ⟨r, hreply, hr⟩ := step_replies_of_ok hs hc hok ht
    rw [hreply]
    intro heq
    exact hr w (List.singleton_inj.mp (List.append_cancel_left heq))
  · exact nomatch encode_of_decodeCommand (c := c) h
  · exact nomatch encode_of_decodeCommand (c := c) h

/-- Settles O7: a reserved code has no length, so the decoder answers CMD_RESERVED, which refuses its word. -/
theorem reservedCommandsAnswerBadCommand : Obligations.ReservedCommandsAnswerBadCommand := by
  refine ⟨fun c code ops hcode => ?_, fun s code ops hopen => ?_⟩
  · exact decodeCommand_of_reserved (by simpa [reservedCode] using hcode) ops
  · rw [exec, execCmdReserved, State.badCommand_eq, if_pos hopen]

end Sys2Proof.Machine
end

section
/-! PROOFS. The report decoder (spec/40_decoder.md R91 to R113): the bit fields of a report, the bytes each branch
reads, and the DEC_* rows. -/

namespace Sys2Proof.Machine

/-! ### Branches -/

/-- R92, R93: a report that is not empty and has a branch's tag goes to the branch, or is short. -/
theorem decodeReport_of_branchTag {c : Cfg} (h : c.wf = true) {buf : Packet} {n : Nat} (hpos : 0 < min n c.pktLen)
    (br : InBranch) (ht : byteAt buf 0 = branchTag c br) :
    decodeReport c buf n =
      if min n c.pktLen < reqlen c br then ([], some (.short (byteAt buf 0) (min n c.pktLen)))
      else reportEvents c (readBranch c buf br) :=
  decodeReport_branch c buf n br hpos.ne' (ht ▸ lookupTag_branchTag h br)

/-- A branch that needs its tag alone cannot be short (R108, R109). -/
theorem decodeReport_of_tagOnly {c : Cfg} (h : c.wf = true) {buf : Packet} {n : Nat} (hpos : 0 < min n c.pktLen)
    {br : InBranch} (hreq : reqlen c br = 1) (ht : byteAt buf 0 = branchTag c br) :
    decodeReport c buf n = reportEvents c (readBranch c buf br) := by
  rw [decodeReport_of_branchTag h hpos br ht, hreq, if_neg (Nat.not_lt.mpr hpos)]

/-- R107: the high nibble is the byte shifted down by 4. -/
theorem decodeLeds_eq (led : Byte) : decodeLeds led = .leds (led >>> 4) := by
  have hnibble : (led.extractLsb' 4 4).setWidth 8 = led >>> 4 := by
    apply BitVec.eq_of_toNat_eq
    have hlt := led.isLt
    simp only [BitVec.toNat_setWidth, BitVec.extractLsb'_toNat, BitVec.toNat_ushiftRight, Nat.shiftRight_eq_div_pow]
    omega
  rw [decodeLeds, hnibble]

/-- Settles O13: by the line of the dispatch that the count and the tag choose. -/
theorem reportDecodeFollowsTheDispatchTable : Obligations.ReportDecodeFollowsTheDispatchTable := by
  intro c buf n hc
  refine ⟨decodeReport_empty c buf n, fun hpos hunknown => ?_,
    fun hpos ht => decodeReport_of_branchTag hc hpos .btn ht,
    fun hpos ht => decodeReport_of_branchTag hc hpos .btnAcc ht,
    fun hpos ht => decodeReport_of_branchTag hc hpos .btnAccIrExt ht,
    fun hpos ht => decodeReport_of_branchTag hc hpos .btnIrExt ht, fun hpos ht => ?_,
    fun hpos ht => decodeReport_of_tagOnly hc hpos (br := .readResult) rfl ht,
    fun hpos ht => decodeReport_of_tagOnly hc hpos (br := .ack) rfl ht⟩
  · have hnone : lookupTag c (byteAt buf 0) = none :=
      (lookupTag_eq_none c _).mpr (by simpa using hunknown)
    exact decodeReport_unknown c buf n hpos.ne' hnone
  · rw [← decodeLeds_eq]
    exact decodeReport_of_branchTag hc hpos .status ht

/-! ### What the decoder reads -/

/-- The result of `decode` is the tag's, the clipped count's and, where the report is long enough, the branch's. -/
theorem decodeReport_congr {c : Cfg} {buf buf' : Packet} {n : Nat}
    (htag : 0 < min n c.pktLen → byteAt buf 0 = byteAt buf' 0)
    (hbranch : ∀ br, lookupTag c (byteAt buf 0) = some br → reqlen c br ≤ min n c.pktLen →
      reportEvents c (readBranch c buf br) = reportEvents c (readBranch c buf' br)) :
    decodeReport c buf n = decodeReport c buf' n := by
  rcases Nat.eq_zero_or_pos (min n c.pktLen) with hzero | hpos
  · rw [decodeReport_empty c buf n hzero, decodeReport_empty c buf' n hzero]
  · have ht := htag hpos
    cases hbr : lookupTag c (byteAt buf 0) with
    | none =>
      rw [decodeReport_unknown c buf n hpos.ne' hbr, decodeReport_unknown c buf' n hpos.ne' (ht ▸ hbr), ht]
    | some br =>
      rw [decodeReport_branch c buf n br hpos.ne' hbr, decodeReport_branch c buf' n br hpos.ne' (ht ▸ hbr), ← ht]
      split
      next => rfl
      next hlong => exact hbranch br hbr (Nat.not_lt.mp hlong)

/-- A group is its five bytes (R68). -/
theorem groupAt_congr {buf buf' : Packet} {off : Nat}
    (h : ∀ j, off ≤ j → j < off + 5 → byteAt buf j = byteAt buf' j) : groupAt buf off = groupAt buf' off := by
  simp only [groupAt, IrGroup.mk.injEq]
  refine ⟨h _ ?_ ?_, h _ ?_ ?_, h _ ?_ ?_, h _ ?_ ?_, h _ ?_ ?_⟩ <;> omega

/-- R93: a branch reads only bytes below its required length. -/
theorem readBranch_congr {c : Cfg} {buf buf' : Packet} {br : InBranch}
    (h : ∀ j, j < reqlen c br → byteAt buf j = byteAt buf' j) : readBranch c buf br = readBranch c buf' br := by
  have hgroup : ∀ off, off + 5 ≤ reqlen c br → groupAt buf off = groupAt buf' off :=
    fun off hoff => groupAt_congr fun j _ hj => h j (by omega)
  cases br <;> simp only [reqlen] at h hgroup <;> simp only [readBranch]
  case btn => rw [h 1 (by omega), h 2 (by omega)]
  case btnAcc => rw [h 1 (by omega), h 2 (by omega), h 3 (by omega), h 4 (by omega), h 5 (by omega)]
  case btnAccIrExt =>
    rw [h 1 (by omega), h 2 (by omega), h 3 (by omega), h 4 (by omega), h 5 (by omega), hgroup _ (by omega),
      hgroup (c.irOffAcc + 5) (by omega)]
  case btnIrExt => rw [h 1 (by omega), h 2 (by omega), hgroup _ (by omega), hgroup (c.irOffNoAcc + 5) (by omega)]
  case status => rw [h _ (by omega)]

/-- Settles O14: the tag is below every count but 0, and a branch is reached with its required length inside
the count. -/
theorem reportDecodeReadsOnlyBytesBelowTheCount : Obligations.ReportDecodeReadsOnlyBytesBelowTheCount := by
  intro c buf buf' n hbytes
  refine decodeReport_congr (hbytes 0) fun br _ hlong => ?_
  rw [readBranch_congr fun j hj => hbytes j (Nat.lt_of_lt_of_le hj hlong)]

/-! ### Buttons -/

theorem buttonFlag_eq_true_iff (b1 b2 : Byte) (e : BtnSrc) :
    buttonFlag b1 b2 e = true ↔ btnByte b1 b2 e.byte &&& e.mask ≠ 0 := decide_eq_true_iff

/-- Settles O16: each flag is the masked bit of its entry. -/
theorem buttonFlagsAreTheirMaskedBits : Obligations.ButtonFlagsAreTheirMaskedBits :=
  fun c b1 b2 =>
    have flag := buttonFlag_eq_true_iff b1 b2
    ⟨flag c.btn.left, flag c.btn.right, flag c.btn.down, flag c.btn.up, flag c.btn.plus, flag c.btn.minus,
      flag c.btn.home, flag c.btn.one, flag c.btn.two, flag c.btn.a, flag c.btn.b⟩

/-- A flag whose mask is bit `i` is bit `i` of its byte. -/
theorem buttonFlag_of_mask_eq_twoPow (b1 b2 : Byte) {e : BtnSrc} (i : Fin 8) (h : e.mask = BitVec.twoPow 8 i) :
    buttonFlag b1 b2 e = (btnByte b1 b2 e.byte).getLsbD i := by
  have hmask : ∀ i : Fin 8, BitVec.twoPow 8 i ≠ 0 := by decide
  rw [buttonFlag, h, BitVec.and_twoPow]
  cases (btnByte b1 b2 e.byte).getLsbD i
  · rfl
  · exact decide_eq_true (hmask i)

/-- Settles O17: each mask of REFCFG is the one bit that the table lists. -/
theorem referenceButtonsAreTheListedBits : Obligations.ReferenceButtonsAreTheListedBits := by
  intro b1 b2
  have flag := fun (e : BtnSrc) => buttonFlag_of_mask_eq_twoPow b1 b2 (e := e)
  simp only [decodeButtons, Buttons.mk.injEq]
  exact ⟨flag _ 0 rfl, flag _ 1 rfl, flag _ 2 rfl, flag _ 3 rfl, flag _ 4 rfl, flag _ 4 rfl, flag _ 7 rfl,
    flag _ 1 rfl, flag _ 0 rfl, flag _ 3 rfl, flag _ 2 rfl⟩

/-- A flag is not changed by the bits outside its mask. -/
theorem buttonFlag_congr {b1 b2 b1' b2' : Byte} {e : BtnSrc}
    (h : ∀ i, e.mask.getLsbD i = true → (btnByte b1 b2 e.byte).getLsbD i = (btnByte b1' b2' e.byte).getLsbD i) :
    buttonFlag b1 b2 e = buttonFlag b1' b2' e := by
  have hmasked : btnByte b1 b2 e.byte &&& e.mask = btnByte b1' b2' e.byte &&& e.mask := by
    apply BitVec.eq_of_getLsbD_eq
    intro i _
    rw [BitVec.getLsbD_and, BitVec.getLsbD_and]
    cases hm : e.mask.getLsbD i with
    | false => rw [Bool.and_false, Bool.and_false]
    | true => rw [h i hm]
  rw [buttonFlag, buttonFlag, hmasked]

/-- R113: the flags read only the bits that some button uses. -/
theorem decodeButtons_congr {c : Cfg} {b1 b2 b1' b2' : Byte}
    (h : ∀ b i, buttonUses c b i → (btnByte b1 b2 b).getLsbD i = (btnByte b1' b2' b).getLsbD i) :
    decodeButtons c b1 b2 = decodeButtons c b1' b2' := by
  have hflag : ∀ e ∈ c.btn.toList, buttonFlag b1 b2 e = buttonFlag b1' b2' e :=
    fun e he => buttonFlag_congr fun i hi => h e.byte i ⟨e, he, rfl, hi⟩
  simp only [Buttons.toList, List.forall_mem_cons] at hflag
  simp only [decodeButtons, hflag]

/-! ### Acceleration -/

theorem axisValue_congr {b1 b2 b1' b2' : Byte} (coarse : Byte) {src : AccSrc}
    (hhi : srcBit b1 b2 src.hi = srcBit b1' b2' src.hi) (hlo : srcBit b1 b2 src.lo = srcBit b1' b2' src.lo) :
    axisValue b1 b2 coarse src = axisValue b1' b2' coarse src := by
  rw [axisValue, axisValue, hhi, hlo]

/-- R113: of B1 and B2 the acceleration reads only the bits that some axis uses. -/
theorem decodeAccel_congr {c : Cfg} {b1 b2 b1' b2' : Byte} (ax ay az : Byte)
    (h : ∀ b i, axisUses c b i → (btnByte b1 b2 b).getLsbD i = (btnByte b1' b2' b).getLsbD i) :
    decodeAccel c b1 b2 ax ay az = decodeAccel c b1' b2' ax ay az := by
  have hbit : ∀ src ∈ [c.accSrc.x.hi, c.accSrc.x.lo, c.accSrc.y.hi, c.accSrc.y.lo, c.accSrc.z.hi, c.accSrc.z.lo],
      srcBit b1 b2 src = srcBit b1' b2' src := by
    intro src hsrc
    cases src with
    | zero => rfl
    | bit b i => exact h b i ⟨_, hsrc, i, rfl, rfl⟩
  simp only [List.forall_mem_cons] at hbit
  obtain ⟨hxhi, hxlo, hyhi, hylo, hzhi, hzlo, -⟩ := hbit
  rw [decodeAccel, decodeAccel, axisValue_congr ax hxhi hxlo, axisValue_congr ay hyhi hylo,
    axisValue_congr az hzhi hzlo]

/-- R100: `s16` holds every value of the formula. -/
theorem toInt_ofInt_axisValue (b1 b2 coarse : Byte) (src : AccSrc) :
    (BitVec.ofInt 16 (axisValue b1 b2 coarse src)).toInt = axisValue b1 b2 coarse src := by
  obtain ⟨hlo, hhi⟩ := axisValue_mem_Icc b1 b2 coarse src
  rw [BitVec.toInt_ofInt]
  exact Int.bmod_eq_of_le (by omega) (by omega)

/-- Settles O18: `s16` carries each component unchanged, so nothing wraps. -/
theorem accelerationIsTheFormulaWithoutWrapping : Obligations.AccelerationIsTheFormulaWithoutWrapping :=
  fun c b1 b2 ax ay az => ⟨_, _, _, rfl, toInt_ofInt_axisValue b1 b2 ax c.accSrc.x,
    toInt_ofInt_axisValue b1 b2 ay c.accSrc.y, toInt_ofInt_axisValue b1 b2 az c.accSrc.z⟩

/-- R100: one more in the coarse byte is worth two more in the low bits. -/
theorem axisValue_add_one (b1 b2 b1' b2' : Byte) {coarse : Byte} (hc : coarse.toNat < 255) (src : AccSrc)
    (hhi : srcBit b1 b2 src.hi = true) (hhi' : srcBit b1' b2' src.hi = false)
    (hlo : srcBit b1 b2 src.lo = srcBit b1' b2' src.lo) :
    axisValue b1 b2 coarse src = axisValue b1' b2' (coarse + 1) src := by
  have hnext : (coarse + 1).toNat = coarse.toNat + 1 := by
    rw [BitVec.toNat_add]
    exact Nat.mod_eq_of_lt (by simp; omega)
  rw [axisValue, axisValue, hhi, hhi', hlo, hnext]
  simp only [Bool.toNat_true, Bool.toNat_false]
  omega

/-- Settles O19: the range is that of every component; the ends and the coinciding pairs are computed. -/
theorem accelerationRangeIsTakenAndNotInjective : Obligations.AccelerationRangeIsTakenAndNotInjective :=
  ⟨decodeAccel_ok, rfl, rfl, fun _ hc => axisValue_add_one _ _ _ _ hc _ rfl rfl rfl⟩

/-! ### IR -/

theorem irSlot_eq_none_iff {lowX lowY : Byte} {highX highY : BitVec 2} :
    irSlot lowX lowY highX highY = none ↔ lowX = 0xFF ∧ lowY = 0xFF := by
  simp [irSlot]

/-- R103: the 2-bit field at `l` is the middle byte shifted down by `l`, modulo 4. -/
theorem toNat_midField (m : Byte) (l : Fin 7) : (midField m l).toNat = m.toNat / 2 ^ l.val % 4 := by
  rw [midField, BitVec.extractLsb'_toNat, Nat.shiftRight_eq_div_pow]

/-- D33: a coordinate is 256 times its field plus its low byte. -/
theorem toNat_midField_append (m : Byte) (l : Fin 7) (low : Byte) :
    (midField m l ++ low).toNat = 256 * (m.toNat / 2 ^ l.val % 4) + low.toNat := by
  rw [BitVec.toNat_append, ← Nat.shiftLeft_add_eq_or_of_lt low.isLt, toNat_midField, Nat.shiftLeft_eq, Nat.mul_comm]

theorem coordinates_of_irSlot {lowX lowY m : Byte} {lx ly : Fin 7} {o : IrObject}
    (h : irSlot lowX lowY (midField m lx) (midField m ly) = some o) :
    o.x.toNat = 256 * (m.toNat / 2 ^ lx.val % 4) + lowX.toNat ∧
      o.y.toNat = 256 * (m.toNat / 2 ^ ly.val % 4) + lowY.toNat := by
  unfold irSlot at h
  split at h
  next => cases h
  next =>
    cases h
    exact ⟨toNat_midField_append m lx lowX, toNat_midField_append m ly lowY⟩

/-- Settles O20: each slot is one `irSlot` of its group's bytes. -/
theorem irSlotsFollowPresenceAndPosition : Obligations.IrSlotsFollowPresenceAndPosition :=
  ⟨fun _ _ _ => rfl, fun _ _ => ⟨irSlot_eq_none_iff, irSlot_eq_none_iff, fun _ => coordinates_of_irSlot,
    fun _ => coordinates_of_irSlot⟩⟩

/-! ### Ignored bits -/

/-- Settles O15: the flags and the axes read only the bits that they use, and the rest of a branch is read below its
required length. -/
theorem ignoredInputBitsNeverChangeTheResult : Obligations.IgnoredInputBitsNeverChangeTheResult := by
  intro c buf buf' n br hc hbr ht ht' hbytes hbits
  obtain ⟨-, hoffAcc, -, hoffNoAcc, -⟩ := c.wf_layout hc
  refine decodeReport_congr (fun _ => ht') fun br' hbr' _ => ?_
  obtain rfl : br = br' := by
    rw [ht', ht, lookupTag_branchTag hc br] at hbr'
    exact Option.some.inj hbr'
  have hbuttons := decodeButtons_congr fun b i huse => hbits b i (.inl huse)
  have haccel (hb : br = .btnAcc ∨ br = .btnAccIrExt) (hlen : 6 ≤ reqlen c br) :
      decodeAccel c (byteAt buf' 1) (byteAt buf' 2) (byteAt buf' 3) (byteAt buf' 4) (byteAt buf' 5) =
        decodeAccel c (byteAt buf 1) (byteAt buf 2) (byteAt buf 3) (byteAt buf 4) (byteAt buf 5) := by
    rw [hbytes 3 (by omega) (by omega), hbytes 4 (by omega) (by omega), hbytes 5 (by omega) (by omega)]
    exact decodeAccel_congr _ _ _ fun b i huse => hbits b i (.inr ⟨hb, huse⟩)
  have hgroup (off : Nat) (hlo : 3 ≤ off) (hhi : off + 5 ≤ reqlen c br) : groupAt buf' off = groupAt buf off :=
    groupAt_congr fun j hj hj' => hbytes j (by omega) (by omega)
  rcases hbr with rfl | rfl | rfl | rfl <;> simp only [reqlen] at hgroup <;>
    simp only [readBranch, reportEvents, buttonsEvent, hbuttons]
  · rw [haccel (.inl rfl) (Nat.le_refl 6)]
  · rw [haccel (.inr rfl) (Nat.le_max_left ..), hgroup c.irOffAcc (by omega) (by omega),
      hgroup (c.irOffAcc + 5) (by omega) (by omega)]
  · rw [hgroup c.irOffNoAcc (by omega) (by omega), hgroup (c.irOffNoAcc + 5) (by omega) (by omega)]

/-! ### The DEC_* rows -/

/-- A row that delivers a report on an open session (R192). -/
theorem exec_eq_afterReport {s : State} {i : Instr} {evs : List Event} {d : Option Diag} (hopen : s.session = .isOpen)
    (h : openEffect i s = s.deliver evs d) : exec i s = .next (s.afterReport evs d) := by
  rw [exec_eq, State.whenOpen_isOpen s _ hopen, h, State.deliver_eq]
  rfl

/-- Settles O12: every DEC_* row delivers its branch's events and diagnostic. -/
theorem reportInstructionsDeliverTheirEvents : Obligations.ReportInstructionsDeliverTheirEvents := by
  intro s hopen
  refine ⟨fun _ _ => exec_eq_afterReport hopen rfl, fun _ _ _ _ _ => exec_eq_afterReport hopen rfl,
    fun _ _ _ _ _ _ _ => exec_eq_afterReport hopen rfl, fun _ _ _ _ => exec_eq_afterReport hopen rfl, fun led => ?_,
    exec_eq_afterReport hopen rfl, exec_eq_afterReport hopen rfl, fun _ => exec_eq_afterReport hopen rfl,
    exec_eq_afterReport hopen rfl⟩
  rw [← decodeLeds_eq]
  exact exec_eq_afterReport hopen rfl

end Sys2Proof.Machine
end

section
/-! PROOFS. The command encoder (spec/41_encoder.md R131 to R143): the egress merge, the words and the one packet of each
single-packet command, and the rumble bit of everything a step puts out. -/

namespace Sys2Proof

/-! ### Words with one operand

`read` is the operand reader of a code and `command` its row. -/

section OneOperand

variable {α : Type} {code b : Byte} {read : Byte → Option α} {command : α → Instr}

/-- A word with one operand is the command of the operand that its byte is the index of (R76). -/
theorem decodeCommand_of_operand {x : α} (hk : commandLength code = some 2)
    (hc : commandOf code [b] = (read b).map command) (h : read b = some x) :
    decodeCommand [code, b] = .instr (command x) :=
  decodeCommand_of_commandOf hk (by rw [hc, h, Option.map_some])

/-- A word of its code's length with an operand outside its range is rejected (R77). -/
theorem decodeCommand_of_badOperand (hk : commandLength code = some 2)
    (hc : commandOf code [b] = (read b).map command) (h : ¬ (read b).isSome = true) :
    decodeCommand [code, b] = .reject .badOperand := by
  have hnone : commandOf code [b] = none := by
    rw [hc, Option.not_isSome_iff_eq_none.mp h, Option.map_none]
  simp only [decodeCommand, hk, hnone, List.length_singleton, if_true]

end OneOperand

/-- A selector of a mode is the word of MODE with that mode (R76, R138). -/
theorem decodeCommand_mode {sel : Byte} {m : ReportingMode} (h : sel.toNat = (modeByte m).toNat) :
    decodeCommand [0x01, sel] = .instr (.mode m) :=
  decodeCommand_of_operand (read := modeOfByte) rfl rfl (modeOfByte_eq_some.mpr (BitVec.eq_of_toNat_eq h))

theorem decodeCommand_mode_badOperand {sel : Byte} (h : 3 < sel.toNat) :
    decodeCommand [0x01, sel] = .reject .badOperand :=
  decodeCommand_of_badOperand (command := .mode) rfl rfl (mt (isSome_modeOfByte sel).mp (Nat.not_le.mpr h))

/-- A byte up to 15 is the word of LEDS with its low nibble as the mask (R76, D34). -/
theorem decodeCommand_leds {b : Byte} (h : b.toNat ≤ 15) :
    decodeCommand [0x04, b] = .instr (.leds (b.setWidth 4)) := by
  have hnibble : b = (b.setWidth 4).setWidth 8 := by
    apply BitVec.eq_of_toNat_eq
    simp only [BitVec.toNat_setWidth]
    omega
  exact decodeCommand_of_operand (read := maskOfByte) rfl rfl (maskOfByte_eq_some.mpr hnibble)

theorem decodeCommand_leds_badOperand {b : Byte} (h : 15 < b.toNat) :
    decodeCommand [0x04, b] = .reject .badOperand :=
  decodeCommand_of_badOperand (command := .leds) rfl rfl (mt (isSome_maskOfByte b).mp (Nat.not_le.mpr h))

/-- The bytes 0 and 1 are the words of RUMBLE (R76). -/
theorem decodeCommand_rumble {b : Byte} {on : Bool} (h : b.toNat = (boolByte on).toNat) :
    decodeCommand [0x05, b] = .instr (.rumble on) :=
  decodeCommand_of_operand (read := boolOfByte) rfl rfl (boolOfByte_eq_some.mpr (BitVec.eq_of_toNat_eq h))

theorem decodeCommand_rumble_badOperand {b : Byte} (h : 1 < b.toNat) :
    decodeCommand [0x05, b] = .reject .badOperand :=
  decodeCommand_of_badOperand (command := .rumble) rfl rfl (mt (isSome_boolOfByte b).mp (Nat.not_le.mpr h))

/-! ### Reports of the full length -/

/-- A full-length report with a branch's tag goes to the branch (R92, R93). -/
theorem decode_input_of_branchTag {c : Cfg} (h : c.wf = true) {buf : Packet} {n : Nat} (br : InBranch)
    (ht : byteAt buf 0 = branchTag c br) (hn : c.pktLen ≤ n) :
    decode c (.input buf n) = .instr (readBranch c buf br) := by
  have hpos : c.pktLen ≠ 0 := by have := c.wf_layout h; omega
  simp only [decode, decodeInput, decodeClipped, Nat.min_eq_right hn, hpos, ht, lookupTag_branchTag h br,
    Nat.not_lt.mpr (reqlen_le_pktLen h br), if_false]

/-! ### Addresses -/

theorem ofNat_mod_256 (n : Nat) : BitVec.ofNat 8 (n % 256) = BitVec.ofNat 8 n :=
  BitVec.eq_of_toNat_eq (by simp)

/-- An address goes out as its three low bytes, big-endian (R45). -/
theorem addrBytes_eq (addr : Nat) : addrBytes addr =
    [BitVec.ofNat 8 (addr / 2 ^ 16 % 256), BitVec.ofNat 8 (addr / 2 ^ 8 % 256), BitVec.ofNat 8 (addr % 256)] := by
  simp [addrBytes, ofNat_mod_256]

/-- Only the low 24 bits of an address reach the packet (R136). -/
theorem addrBytes_mod (addr : Nat) : addrBytes (addr % 2 ^ 24) = addrBytes addr := by
  have hhigh : addr % 2 ^ 24 / 2 ^ 16 % 256 = addr / 2 ^ 16 % 256 := by omega
  have hmiddle : addr % 2 ^ 24 / 2 ^ 8 % 256 = addr / 2 ^ 8 % 256 := by omega
  have hlow : addr % 2 ^ 24 % 256 = addr % 256 := by omega
  rw [addrBytes_eq, addrBytes_eq, hhigh, hmiddle, hlow]

end Sys2Proof

namespace Sys2Proof.Machine

/-! ### The bytes of a merged packet -/

@[simp] theorem getLsbD_mergeByte_zero (r : Bool) (b : Byte) : (mergeByte r b).getLsbD 0 = r := by
  revert r b
  decide

theorem getLsbD_mergeByte_of_pos (r : Bool) (b : Byte) {j : Nat} (h : 1 ≤ j) :
    (mergeByte r b).getLsbD j = b.getLsbD j := by
  by_cases hj : j < 8
  · have hmask : ∀ j : Fin 8, 1 ≤ j.val → (0xFE : Byte).getLsbD j = true := by decide
    have hflag : ∀ (r : Bool) (j : Fin 8), 1 ≤ j.val → (boolByte r).getLsbD j = false := by decide
    rw [mergeByte, BitVec.getLsbD_or, BitVec.getLsbD_and, hmask ⟨j, hj⟩ h, hflag r ⟨j, hj⟩ h, Bool.and_true,
      Bool.or_false]
  · rw [BitVec.getLsbD_of_ge _ _ (by omega), BitVec.getLsbD_of_ge _ _ (by omega)]

/-- On a byte that the encoder left clear at bit 0 (R7) the merge only adds the flag. -/
theorem mergeByte_of_clear (r : Bool) {b : Byte} (h : b.getLsbD 0 = false) : mergeByte r b = b ||| boolByte r :=
  congrArg (· ||| boolByte r) (withoutRumble_of_clear b h)

theorem byteAt_merge_one (r : Bool) {p : Packet} (h : 2 ≤ p.length) :
    byteAt (merge r p) 1 = mergeByte r (byteAt p 1) := by
  match p, h with
  | _ :: _ :: _, _ => rfl

theorem byteAt_merge_of_ne (r : Bool) (p : Packet) {j : Nat} (h : j ≠ 1) : byteAt (merge r p) j = byteAt p j := by
  simp [byteAt, merge, List.getD_eq_getElem?_getD, h.symm]

/-- Settles O22: byte 1 is the only byte the merge touches, and bit 0 the only bit of it. -/
theorem mergeOverwritesOnlyTheRumbleBit : Obligations.MergeOverwritesOnlyTheRumbleBit := by
  intro r p hlen
  have hone := byteAt_merge_one r hlen
  refine ⟨length_merge r p, ?_, fun b hb => ?_, fun j hj => byteAt_merge_of_ne r p hj⟩
  · rw [hone, getLsbD_mergeByte_zero]
  · rw [hone, getLsbD_mergeByte_of_pos r _ hb]

/-- A well-formed packet goes out with RUMBLE as its rumble bit (R131). -/
theorem rumbleBit_merge_of_ok {c : Cfg} (hc : c.wf = true) {p : Packet} (hp : MicroOp.ok c (.pkt p) = true) (r : Bool) :
    (byteAt (merge r p) 1).getLsbD 0 = r := by
  have hlen : 2 ≤ p.length := by
    have := (c.wf_layout hc).1
    have := (MicroOp.ok_pkt_iff.mp hp).1
    omega
  rw [byteAt_merge_one r hlen, getLsbD_mergeByte_zero]

/-! ### The rumble bit of what a step puts out -/

/-- The trace of `t` is that of `s` with items behind it whose packets carry RUMBLE of `t`. -/
def OutputCarriesRumble (s t : State) : Prop :=
  ∃ new, t.trace = s.trace ++ new ∧ ∀ it ∈ new, ∀ p, it.packet? = some p → (byteAt p 1).getLsbD 0 = t.rumble

theorem OutputCarriesRumble.of_trace_eq {s t : State} (h : t.trace = s.trace) : OutputCarriesRumble s t :=
  ⟨[], by simp [h], by simp⟩

theorem OutputCarriesRumble.of_singleton {s t : State} {it : TraceItem} (h : t.trace = s.trace ++ [it])
    (hit : ∀ p, it.packet? = some p → (byteAt p 1).getLsbD 0 = t.rumble) : OutputCarriesRumble s t :=
  ⟨[it], h, by simpa using hit⟩

/-- Every packet the loop puts out, accepted or refused, is a merged packet of the program. -/
theorem packet_of_mem_outItems {answers : List Bool} {r : Bool} {prog : List MicroOp} {it : TraceItem} {q : Packet}
    (hit : it ∈ outItems answers r prog) (hq : it.packet? = some q) : ∃ p, .pkt p ∈ prog ∧ q = merge r p := by
  induction prog generalizing answers with
  | nil => simp [outItems] at hit
  | cons m rest ih =>
    have later {answers : List Bool} (h : it ∈ outItems answers r rest) : ∃ p, .pkt p ∈ m :: rest ∧ q = merge r p := by
      obtain ⟨p, hp, rfl⟩ := ih h
      exact ⟨p, List.mem_cons_of_mem m hp, rfl⟩
    cases m with
    | wait k =>
      rcases List.mem_cons.mp hit with rfl | hrest
      · cases hq
      · exact later hrest
    | pkt p =>
      simp only [outItems] at hit
      split at hit
      next =>
        rcases List.mem_cons.mp hit with rfl | hrest
        · exact ⟨p, List.mem_cons_self, (Option.some.inj hq).symm⟩
        · exact later hrest
      next =>
        obtain rfl := List.mem_singleton.mp hit
        exact ⟨p, List.mem_cons_self, (Option.some.inj hq).symm⟩

/-- The loop carries RUMBLE on a program of well-formed micro-ops. -/
theorem runBody_outputCarriesRumble {s : State} (hc : s.cfg.wf = true) {prog : List MicroOp}
    (hp : prog.all (MicroOp.ok s.cfg) = true) (i : Nat) : OutputCarriesRumble s (s.runBody i prog) := by
  refine ⟨_, s.runBody_trace i prog, fun it hit q hq => ?_⟩
  obtain ⟨p, hmem, rfl⟩ := packet_of_mem_outItems hit hq
  obtain ⟨-, hrumble, -⟩ := s.runBody_frame i prog
  rw [hrumble]
  exact rumbleBit_merge_of_ok hc (List.all_eq_true.mp hp _ hmem) _

/-- A transition of a running sequencer carries RUMBLE in the packet it sends, if it sends one. -/
theorem seqStep_outputCarriesRumble {s : State} (h : s.Inv) : OutputCarriesRumble s s.seqStep := by
  cases hs : s.seq with
  | idle => exact .of_trace_eq (by simp [State.seqStep, hs])
  | run prog i =>
    have hprog : prog.all (MicroOp.ok s.cfg) = true := by
      have hseq := h.seq_ok
      simp only [hs, Seq.ok, Bool.and_eq_true] at hseq
      exact hseq.2
    have hbit {p : Packet} (hp : prog[i]? = some (.pkt p)) : (byteAt (merge s.rumble p) 1).getLsbD 0 = s.rumble :=
      rumbleBit_merge_of_ok h.cfg_wf (List.all_eq_true.mp hprog _ (List.mem_of_getElem? hp)) _
    rcases s.seqStep_cases prog i hs with ⟨-, e⟩ | ⟨k, -, e⟩ | ⟨p, hp, -, e⟩ | ⟨p, hp, -, e⟩ <;> rw [e]
    · exact .of_trace_eq rfl
    · exact .of_singleton (it := .wait k) rfl nofun
    · exact .of_singleton (it := .sent (merge s.rumble p)) rfl fun _ hq => Option.some.inj hq ▸ hbit hp
    · exact .of_singleton (it := .attempted (merge s.rumble p)) rfl fun _ hq => Option.some.inj hq ▸ hbit hp

/-- Settles O45: by the cases of a step. The sequencer merges RUMBLE into every packet, which is long enough because its
program is well-formed; the rumble command sets its flag before its loop; and every other operation puts nothing out. -/
theorem everyOutboundPacketCarriesRumble : Obligations.EveryOutboundPacketCarriesRumble := by
  intro s t h hstep
  change OutputCarriesRumble s t
  rcases step_cases s t hstep with ⟨prog, i, -, rfl⟩ | ⟨-, word, rest, -, hwrite⟩ | ⟨-, rest, -, hread⟩
  · exact seqStep_outputCarriesRumble h
  · rcases hwrite with ⟨code, -, rfl⟩ | ⟨-, rfl⟩ | ⟨-, i, hi, -, rfl⟩
    · exact .of_trace_eq rfl
    · exact .of_trace_eq rfl
    · have hprog := program_ok h.cfg_wf (wellFormed_of_decodeCommand hi)
      obtain ⟨hcfg, -, -, -, -, -, -, -, htrace, -⟩ := State.flagged_frame { s with calls := rest } i
      have hcarry := runBody_outputCarriesRumble (s := State.flagged { s with calls := rest } i)
        (by rw [hcfg]; exact h.cfg_wf) (by rwa [hcfg]) 0
      rwa [OutputCarriesRumble, htrace] at hcarry
  · refine .of_trace_eq ?_
    rcases hread with ⟨code, -, rfl⟩ | ⟨-, -, rfl⟩ | ⟨-, -, inbox, -, rfl⟩ | ⟨-, -, buf, n, inbox, -, rfl⟩
    · rfl
    · rw [State.popReply_eq]
    · rfl
    · rw [State.deliver_eq]

/-! ### Commands with one packet -/

/-- The loop of a program with one packet, at its front, and waits behind it: both outcomes of the packet. -/
theorem State.runBody_onePacket (s : State) (p : Packet) (ks : List WaitKind) :
    s.runBody 0 (.pkt p :: ks.map .wait) = s.afterOnePacket (merge s.rumble p) (ks.map .wait) := by
  have hcount : packetCount (.pkt p :: ks.map .wait) = 1 := by simp [packetCount, Function.comp_def]
  unfold State.afterOnePacket
  split
  next hok =>
    have haccepts : s.accepts 1 = true := by cases hs : s.sendOk <;> simp_all [State.accepts]
    rw [State.runBody_accepted s 0 _ (by rwa [hcount]), hcount]
    simp [programItems, Function.comp_def]
  next hrefused =>
    have hfalse : s.sendOk[0]? = some false := by cases hs : s.sendOk <;> simp_all
    exact State.runBody_refused s 0 0 _ p rfl rfl hfalse

/-- An instruction whose program is one packet of these bytes and then waits, on an open session. -/
theorem exec_eq_afterOnePacket {s : State} {i : Instr} {tag b : Byte} {bytes : List Byte} {ks : List WaitKind}
    (hopen : s.session = .isOpen) (hprog : program s.cfg i = .pkt (mkpkt s.cfg (tag :: b :: bytes)) :: ks.map .wait) :
    exec i s = .next ((s.flagged i).afterOnePacket
      (tag :: mergeByte (s.flagged i).rumble b :: (bytes ++ List.replicate (s.cfg.pktLen - (bytes.length + 2)) 0))
      (ks.map .wait)) := by
  rw [exec_eq, State.whenOpen_isOpen s _ hopen, openEffect_program i s (by simp [hprog]), hprog,
    State.runBody_onePacket, merge_mkpkt]

/-- Settles O23: by the selector, and by the one packet of MODE's program, whose byte 2 is the mode's tag. -/
theorem modeCommandSendsItsPacket : Obligations.ModeCommandSendsItsPacket := by
  refine ⟨fun _ _ => ⟨decodeCommand_mode (m := .btn), decodeCommand_mode (m := .btnAcc),
    decodeCommand_mode (m := .btnAccIrExt), decodeCommand_mode (m := .btnIrExt), decodeCommand_mode_badOperand⟩,
    fun s m hopen => ?_⟩
  rw [exec_eq_afterOnePacket (ks := []) hopen rfl]
  cases m <;> rfl

/-- Settles O24: a mask is a byte up to 15, and the packet holds it in the high nibble of byte 1, whose bit 0 is clear. -/
theorem ledsCommandSendsItsPacket : Obligations.LedsCommandSendsItsPacket := by
  refine ⟨fun _ _ => ⟨decodeCommand_leds, decodeCommand_leds_badOperand⟩, fun s mask hopen => ?_⟩
  rw [exec_eq_afterOnePacket (ks := []) hopen rfl, mergeByte_of_clear _ (by simp)]
  rfl

/-- Settles O25: the flag is set before the loop, so it is the one that the command's packet carries. -/
theorem rumbleCommandSetsTheFlagThenSends : Obligations.RumbleCommandSetsTheFlagThenSends := by
  refine ⟨fun _ _ => ⟨decodeCommand_rumble (on := false), decodeCommand_rumble (on := true),
    decodeCommand_rumble_badOperand⟩, fun s on hopen => ?_⟩
  rw [exec_eq_afterOnePacket (ks := []) hopen rfl, mergeByte_of_clear _ rfl]
  simp [State.flagged]

/-- Settles O26: the six toggles are the one packet of a FEATURE program, each with its tag. -/
theorem featureTogglesSendASentinel : Obligations.FeatureTogglesSendASentinel := by
  refine ⟨fun c on => ⟨decodeCommand_of_encode (c := c) (i := .spken on) rfl rfl,
    decodeCommand_of_encode (c := c) (i := .spkmute on) rfl rfl⟩,
    fun s on hopen => ?_⟩
  have toggle (i : Instr) (t : FeatureTag) (hi : program s.cfg i = progFeature s.cfg t on) :=
    exec_eq_afterOnePacket (ks := []) hopen hi
  exact ⟨toggle (.spken on) .spkEn rfl, toggle (.spkmute on) .spkMute rfl, toggle (.feature .spkEn on) .spkEn rfl,
    toggle (.feature .spkMute on) .spkMute rfl, toggle (.feature .irPixClk on) .irPixClk rfl,
    toggle (.feature .irCam on) .irCam rfl⟩

/-- Settles O27: WREG's program is its packet and its wait, and the packet holds an address by its bytes modulo 256. -/
theorem registerWriteSendsItsPacketThenWaits : Obligations.RegisterWriteSendsItsPacketThenWaits := by
  refine ⟨fun s addr data hopen => ?_, fun s addr data => ?_⟩
  · have hpad : min 16 data.length + 1 + 1 + 1 + 1 + 2 = 6 + min data.length 16 := by omega
    rw [exec_eq_afterOnePacket (ks := [.wreg]) hopen rfl]
    simp [addrBytes_eq, mergeByte, State.flagged, hpad]
  · simp only [exec, execWreg, progWreg, wregPacket, addrBytes_mod]

/-! ### The mode and the report -/

/-- The branch of a reporting mode's reports (R138, R143). -/
def modeBranch : ReportingMode → InBranch
  | .btn => .btn
  | .btnAcc => .btnAcc
  | .btnAccIrExt => .btnAccIrExt
  | .btnIrExt => .btnIrExt

theorem branchTag_modeBranch (c : Cfg) (m : ReportingMode) : branchTag c (modeBranch m) = modeTag c m := by
  cases m <;> rfl

/-- Byte 2 of the packet MODE puts out, accepted or not, is the mode's tag: the merge leaves it alone (R137). -/
theorem byteAt_two_of_exec_mode {s t : State} {m : ReportingMode} {it : TraceItem} {p : Packet}
    (hopen : s.session = .isOpen) (ht : exec (.mode m) s = .next t) (htrace : t.trace = s.trace ++ [it])
    (hp : it.packet? = some p) : byteAt p 2 = modeTag s.cfg m := by
  rw [exec_eq, State.whenOpen_isOpen s _ hopen] at ht
  obtain rfl := Host.Outcome.next.inj ht
  rw [openEffect_trace] at htrace
  have hit : it ∈ outItems s.sendOk (s.flagged (.mode m)).rumble (progMode s.cfg m) := by
    rw [program] at htrace
    simp [List.append_cancel_left htrace]
  obtain ⟨q, hq, rfl⟩ := packet_of_mem_outItems hit hp
  obtain rfl : q = mkpkt s.cfg [s.cfg.otag.mode, s.cfg.modeFlags, modeTag s.cfg m] := by
    simpa [progMode] using hq
  exact byteAt_merge_of_ne _ _ (by decide)

/-- Settles O21: byte 2 of MODE's packet is the tag of the mode's branch. -/
theorem reportingModeRoundTrip : Obligations.ReportingModeRoundTrip := by
  intro s t m it p buf n hc hopen ht htrace hp hbuf hn
  have htag : byteAt buf 0 = branchTag s.cfg (modeBranch m) := by
    rw [hbuf, byteAt_two_of_exec_mode hopen ht htrace hp, branchTag_modeBranch]
  have hdec := decode_input_of_branchTag hc (modeBranch m) htag hn
  cases m with
  | btn => exact ⟨_, _, hdec⟩
  | btnAcc => exact ⟨_, _, _, _, _, hdec⟩
  | btnAccIrExt => exact ⟨_, _, _, _, _, _, _, hdec⟩
  | btnIrExt => exact ⟨_, _, _, _, hdec⟩

end Sys2Proof.Machine
end

section
/-! PROOFS. The sequencer (spec/42_sequencer.md R160 to R174): its transitions, whole programs on a transport that
accepts or refuses, the programs of IRON, IROFF and SPKDATA, and the time stamps that respect their waits. -/

namespace Sys2Proof

/-! ### Words -/

/-- An index names one IR mode (R76, R167). -/
theorem eq_irModeIndex_iff {b : Byte} {m : IrMode} : b = irModeIndex m ↔
    (b.toNat = 0 ∧ m = .basic) ∨ (b.toNat = 1 ∧ m = .extended) ∨ (b.toNat = 2 ∧ m = .full) := by
  cases m <;> simp [irModeIndex, ← BitVec.toNat_inj]

/-- An index names one sensitivity (R76, R169). -/
theorem eq_sensIndex_iff {b : Byte} {x : Sensitivity} : b = sensIndex x ↔
    (b.toNat = 0 ∧ x = .level1) ∨ (b.toNat = 1 ∧ x = .level2) ∨ (b.toNat = 2 ∧ x = .level3) ∨
      (b.toNat = 3 ∧ x = .level4) ∨ (b.toNat = 4 ∧ x = .level5) ∨ (b.toNat = 5 ∧ x = .custom1) ∨
      (b.toNat = 6 ∧ x = .custom2) := by
  cases x <;> simp [sensIndex, ← BitVec.toNat_inj]

/-- A word is IRON exactly if it is IRON's encoding (R76). -/
theorem decode_eq_iron_iff {c : Cfg} {a b : Byte} {m : IrMode} {x : Sensitivity} :
    decode c (.command [0x02, a, b]) = .instr (.iron m x) ↔ a = irModeIndex m ∧ b = sensIndex x := by
  rw [commandWordsAndCommandsCorrespond c _ _]
  simp [encode, WellFormed, eq_comm]

theorem decodeCommand_iron_badOperand {a b : Byte} (h : 2 < a.toNat ∨ 6 < b.toNat) :
    decodeCommand [0x02, a, b] = .reject .badOperand := by
  rcases h with ha | hb
  · have hmode : irModeOfByte a = none :=
      Option.not_isSome_iff_eq_none.mp (mt (isSome_irModeOfByte a).mp (Nat.not_le.mpr ha))
    simp [decodeCommand, commandLength, commandOf, hmode]
  · have hsens : sensOfByte b = none :=
      Option.not_isSome_iff_eq_none.mp (mt (isSome_sensOfByte b).mp (Nat.not_le.mpr hb))
    simp [decodeCommand, commandLength, commandOf, hsens]

/-- A word of SPKDATA needs 20 samples (R75, R76). -/
theorem decodeCommand_spkdata_badLength {samples : List Byte} (h : samples.length ≠ 20) :
    decodeCommand (0x08 :: samples) = .reject .badLength := by
  simp [decodeCommand, commandLength, h]

/-! ### Addresses -/

/-- A 24-bit address goes out as its three bytes, the high one first (R45). -/
theorem addrBytes_toNat (addr : Addr24) :
    addrBytes addr.toNat = [addr.extractLsb' 16 8, addr.extractLsb' 8 8, addr.extractLsb' 0 8] := by
  simp [addrBytes, BitVec.extractLsb', Nat.shiftRight_eq_div_pow]

end Sys2Proof

namespace Sys2Proof.Machine

/-! ### Transitions -/

section Transitions

variable {s : State} {prog : List MicroOp} {i : Nat} (hs : s.seq = .run prog i)
include hs

/-- R161: a packet that is accepted. -/
theorem State.seqStep_accepted {p : Packet} (hp : prog[i]? = some (.pkt p)) (ha : s.sendOk.headD true = true) :
    s.seqStep = (s.dropSendAnswer.emit (.sent (merge s.rumble p))).setSeq (.run prog (i + 1)) := by
  simp only [State.seqStep, hs, hp, State.sendAt, ha, if_true]

/-- R161: a packet that fails. -/
theorem State.seqStep_refused {p : Packet} (hp : prog[i]? = some (.pkt p)) (ha : s.sendOk.headD true = false) :
    s.seqStep = (s.dropSendAnswer.emit (.attempted (merge s.rumble p))).fatal (.transportWrite i) := by
  simp only [State.seqStep, hs, hp, State.sendAt, ha, Bool.false_eq_true, if_false]

/-- R161: a wait. -/
theorem State.seqStep_wait {k : WaitKind} (hk : prog[i]? = some (.wait k)) :
    s.seqStep = (s.emit (.wait k)).setSeq (.run prog (i + 1)) := by
  simp only [State.seqStep, hs, hk]

/-- R161: the end of the program. -/
theorem State.seqStep_end (hi : prog[i]? = none) : s.seqStep = (s.setSeq .idle).reply .writeOk := by
  simp only [State.seqStep, hs, hi]

end Transitions

/-- R161: an idle SEQ makes no transition. -/
theorem State.seqStep_idle {s : State} (hs : s.seq = .idle) : s.seqStep = s := by
  simp only [State.seqStep, hs]

/-! ### Whole programs -/

/-- A command on an open session is the loop of its program, under its flag (R191). -/
theorem exec_eq_runBody {s : State} {i : Instr} (hopen : s.session = .isOpen) (hprog : program s.cfg i ≠ []) :
    exec i s = .next ((s.flagged i).runBody 0 (program s.cfg i)) := by
  rw [exec_eq, State.whenOpen_isOpen s _ hopen, openEffect_program i s hprog]

theorem State.flagged_sendOk (s : State) (i : Instr) : (s.flagged i).sendOk = s.sendOk := by
  simp [State.flagged_frame]

theorem State.accepts_flagged (s : State) (i : Instr) (n : Nat) : (s.flagged i).accepts n = s.accepts n := by
  rw [State.accepts, State.flagged_sendOk, State.accepts]

/-- Settles O11: a step of a running SEQ is its transition, by the row that the micro-op and the transport choose, and a
command starts at index 0. -/
theorem sequencerTransitionsAreTheTable : Obligations.SequencerTransitionsAreTheTable := by
  refine ⟨fun s i hopen hprog => ?_, fun s prog i p hs hp ha => ?_, fun s prog i p hs hp ha => ?_,
    fun s prog i k hs hk => ?_, fun s prog hs => ?_, fun s hs => State.seqStep_idle hs⟩
  · rw [exec_eq_runBody hopen hprog, ← State.perform_eq_runBody]
    rfl
  · rw [step_of_done (State.fetch_run hs), State.seqStep_accepted hs hp ha]
    rfl
  · rw [step_of_done (State.fetch_run hs), State.seqStep_refused hs hp ha]
    rfl
  · rw [step_of_done (State.fetch_run hs), State.seqStep_wait hs hk]
    rfl
  · rw [step_of_done (State.fetch_run hs), State.seqStep_end hs (List.getElem?_length ..)]
    rfl

/-- Settles O33: a command on an open session is its loop, and the loop accepted is the whole program. -/
theorem acceptedCommandPutsOutItsWholeProgram : Obligations.AcceptedCommandPutsOutItsWholeProgram := by
  intro s i hopen hprog haccepts
  rw [exec_eq_runBody hopen hprog, State.runBody_accepted _ 0 _ (by rwa [State.accepts_flagged])]

/-- Settles O34: a command on an open session is its loop, and the loop ends at the first refused packet. -/
theorem refusedPacketEndsTheCommandPrecisely : Obligations.RefusedPacketEndsTheCommandPrecisely := by
  intro s i j p hopen prog n hp haccepts hrefused
  have hprog : program s.cfg i ≠ [] := List.ne_nil_of_mem (List.mem_of_getElem? hp)
  rw [exec_eq_runBody hopen hprog, State.runBody_refused _ 0 j _ p hp (by rwa [State.accepts_flagged])
    (by rwa [State.flagged_sendOk]), Nat.zero_add]

/-! ### Packets as they go out -/

theorem merge_featurePacket (c : Cfg) (r : Bool) (t : FeatureTag) (on : Bool) :
    merge r (featurePacket c t on) =
      [featureTagByte c t, mergeByte r (if on then c.enable else c.disable)] ++ List.replicate (c.pktLen - 2) 0 :=
  merge_mkpkt c r _ _ []

/-- A register write of at most 16 data bytes goes out whole (R74, R131, R135). -/
theorem merge_wregPacket (s : State) (addr : Addr24) (data : List Byte) (h : data.length ≤ 16) :
    merge s.rumble (wregPacket s.cfg addr.toNat data) = s.wregBytes addr data := by
  rw [wregPacket_eq_mkpkt _ _ _ h, merge_mkpkt_wregBytes, mkpkt, length_wregBytes]
  simp only [wregBytes, addrBytes_toNat]
  rfl

/-! ### SPKDATA and IROFF -/

/-- Settles O28: SPKDATA's program is its packet and its wait. -/
theorem speakerDataSendsItsPacketThenWaits : Obligations.SpeakerDataSendsItsPacketThenWaits := by
  refine ⟨fun c samples => ⟨fun hlen => ?_, decodeCommand_spkdata_badLength⟩, fun s samples hopen hlen => ?_⟩
  · exact decodeCommand_of_encode (c := c) (i := .spkdata samples) (decide_eq_true hlen) rfl
  · rw [exec_eq_afterOnePacket (bytes := samples) (ks := [.spk]) hopen rfl, hlen]
    rfl

/-- If the transport accepts `n` packets but not `n + 1`, it refuses the one after the `n`. -/
theorem State.sendOk_eq_false_of_accepts {s : State} {n : Nat} (h : s.accepts n = true)
    (hnot : ¬ s.accepts (n + 1) = true) : s.sendOk[n]? = some false := by
  rw [State.accepts, List.take_add_one, List.all_append, Bool.and_eq_true_iff, not_and] at hnot
  have hlast := hnot h
  cases hn : s.sendOk[n]? with
  | none => simp [hn] at hlast
  | some b => simpa [hn] using hlast

/-- Settles O29: by the number of packets that the transport accepts. -/
theorem irOffSendsCameraThenPixelClock : Obligations.IrOffSendsCameraThenPixelClock := by
  refine ⟨fun c => decodeCommand_of_encode (c := c) (i := .iroff) rfl rfl, ?_⟩
  intro s hopen off
  have hcam : off s.cfg.otag.irCam = merge s.rumble (featurePacket s.cfg .irCam false) :=
    (merge_featurePacket s.cfg s.rumble .irCam false).symm
  have hclk : off s.cfg.otag.irPixClk = merge s.rumble (featurePacket s.cfg .irPixClk false) :=
    (merge_featurePacket s.cfg s.rumble .irPixClk false).symm
  rw [hcam, hclk]
  split
  next htwo => exact acceptedCommandPutsOutItsWholeProgram s .iroff hopen (List.cons_ne_nil _ _) htwo
  next hnotTwo =>
    split
    next hone =>
      exact refusedPacketEndsTheCommandPrecisely s .iroff 1 _ hopen rfl hone
        (State.sendOk_eq_false_of_accepts hone hnotTwo)
    next hnotOne =>
      exact refusedPacketEndsTheCommandPrecisely s .iroff 0 _ hopen rfl rfl
        (State.sendOk_eq_false_of_accepts rfl hnotOne)

/-! ### IRON -/

/-- The profile's blocks have 9 and 2 bytes (R8, R170). -/
theorem length_sensBlocks {c : Cfg} (h : c.wf = true) (x : Sensitivity) :
    (sensBlocks c x).blk1.length = 9 ∧ (sensBlocks c x).blk2.length = 2 :=
  c.wf_sens h _ (by cases x <;> simp [sensBlocks, SensTable.toList])

/-- The items of IRON's steps (a) to (h) in order (R168). -/
theorem programItems_progIron {s : State} (h : s.cfg.wf = true) (m : IrMode) (x : Sensitivity) :
    programItems s.rumble (progIron s.cfg m x) =
      [.sent (merge s.rumble (featurePacket s.cfg .irPixClk true)),
       .sent (merge s.rumble (featurePacket s.cfg .irCam true)),
       .sent (s.wregBytes s.cfg.regIrCtrl [s.cfg.irTrigDetect]), .wait .wreg, .wait .ircal,
       .sent (s.wregBytes s.cfg.regIrSens1 (sensBlocks s.cfg x).blk1), .wait .wreg,
       .sent (s.wregBytes s.cfg.regIrSens2 (sensBlocks s.cfg x).blk2), .wait .wreg,
       .sent (s.wregBytes s.cfg.regIrMode [irModeByte s.cfg m]), .wait .wreg,
       .sent (s.wregBytes s.cfg.regIrCtrl [s.cfg.irTrigEnable]), .wait .wreg] := by
  obtain ⟨hblk1, hblk2⟩ := length_sensBlocks h x
  rw [← merge_wregPacket s _ _ (by simp), ← merge_wregPacket s _ _ (by omega), ← merge_wregPacket s _ _ (by omega),
    ← merge_wregPacket s _ _ (by simp), ← merge_wregPacket s _ _ (by simp)]
  rfl

/-- Settles O30: IRON is the word of its two indices, its accepted program puts out the items of its steps, and a
refused packet ends it as it ends every command. -/
theorem irOnSendsTheEightStepsInOrder : Obligations.IrOnSendsTheEightStepsInOrder := by
  refine ⟨fun c a b m sens => ?_, fun c a b h => decodeCommand_iron_badOperand h,
    ?_, fun s m sens j p => refusedPacketEndsTheCommandPrecisely s (.iron m sens) j p⟩
  · rw [decode_eq_iron_iff, eq_irModeIndex_iff, eq_sensIndex_iff]
  · intro s m sens hc hopen haccepts on resolution blocks
    have hclk : on s.cfg.otag.irPixClk = merge s.rumble (featurePacket s.cfg .irPixClk true) :=
      (merge_featurePacket s.cfg s.rumble .irPixClk true).symm
    have hcam : on s.cfg.otag.irCam = merge s.rumble (featurePacket s.cfg .irCam true) :=
      (merge_featurePacket s.cfg s.rumble .irCam true).symm
    have hresolution : resolution = irModeByte s.cfg m := by cases m <;> rfl
    have hblocks : blocks = sensBlocks s.cfg sens := by cases sens <;> rfl
    rw [hclk, hcam, hresolution, hblocks, ← programItems_progIron hc m sens]
    exact acceptedCommandPutsOutItsWholeProgram s (.iron m sens) hopen (List.cons_ne_nil _ _) haccepts

/-! ### Sizes -/

/-- Settles O31: each program is a list of known length, and IRON's is the longest. -/
theorem programSizesAreTheTable : Obligations.ProgramSizesAreTheTable := by
  intro c size
  refine ⟨fun _ => rfl, fun _ => rfl, fun _ => rfl, fun _ => rfl, fun _ => rfl, fun _ => rfl, rfl, fun _ _ => rfl,
    fun i => ?_⟩
  cases i <;> exact Nat.le_of_ble_eq_true rfl

/-! ### Time stamps that respect the waits -/

/-- An item is complete no earlier than its least time after the item before it (R163). -/
theorem RespectsWaits.next {d : WaitKind → Nat} {ready : Nat} {l : List (TraceItem × Nat)}
    (h : RespectsWaits d ready l) {j a b : Nat} {x y : TraceItem} (hj : l[j]? = some (x, a))
    (hnext : l[j + 1]? = some (y, b)) : a + itemTime d y ≤ b := by
  induction l generalizing ready j with
  | nil => simp at hj
  | cons e rest ih =>
    obtain ⟨-, hrest⟩ := h
    cases j with
    | succ j => exact ih hrest hj hnext
    | zero =>
      obtain rfl : e = (x, a) := Option.some.inj hj
      cases rest with
      | nil => simp at hnext
      | cons f rest =>
        obtain rfl : f = (y, b) := Option.some.inj hnext
        exact hrest.1

/-- A wait is complete no earlier than its duration after the item before it. -/
theorem RespectsWaits.wait {d : WaitKind → Nat} {ready : Nat} {l : List (TraceItem × Nat)}
    (h : RespectsWaits d ready l) {j a : Nat} {x : TraceItem} {k : WaitKind} (hj : l[j]? = some (x, a))
    (hwait : l[j + 1]?.map Prod.fst = some (.wait k)) : ∃ b, l[j + 1]? = some (.wait k, b) ∧ a + d k ≤ b := by
  obtain ⟨⟨y, b⟩, hy, rfl⟩ := Option.map_eq_some_iff.mp hwait
  exact ⟨b, hy, h.next hj hy⟩

/-- The item of a stamped trace at an index. -/
theorem map_fst_getElem? {stamped : List (TraceItem × Nat)} {items : List TraceItem}
    (h : stamped.map Prod.fst = items) (j : Nat) : stamped[j]?.map Prod.fst = items[j]? := by
  rw [← h, List.getElem?_map]

/-- An accepted command leaves the session open, with its whole program behind the trace. -/
theorem trace_of_exec_accepted {s t : State} {i : Instr} (hopen : s.session = .isOpen) (hprog : program s.cfg i ≠ [])
    (haccepts : s.accepts (packetCount (program s.cfg i)) = true) (ht : exec i s = .next t) :
    t.session = .isOpen ∧ t.cfg = s.cfg ∧
      t.trace = s.trace ++ programItems (s.flagged i).rumble (program s.cfg i) := by
  obtain ⟨hcfg, hsession, -, -, -, -, -, -, htrace, -⟩ := s.flagged_frame i
  obtain rfl := Host.Outcome.next.inj ((acceptedCommandPutsOutItsWholeProgram s i hopen hprog haccepts).symm.trans ht)
  exact ⟨hsession.trans hopen, hcfg, congrArg (· ++ _) htrace⟩

/-- Settles O54: between IRON's third and fourth packet stand the two waits. -/
theorem irOnWaitsAdd : Obligations.IrOnWaitsAdd := by
  intro s t m sens d ready a b x y stamped hopen haccepts ht htrace hadmits hrespects hx hy
  obtain ⟨-, -, hout⟩ := trace_of_exec_accepted (i := .iron m sens) hopen (List.cons_ne_nil _ _) haccepts ht
  have item := map_fst_getElem? (List.append_cancel_left (htrace.symm.trans hout))
  have hthird := item 2
  have hfourth := item 5
  rw [hx] at hthird
  rw [hy] at hfourth
  obtain ⟨a', hwreg, hle⟩ := hrespects.wait hx (k := .wreg) (item 3)
  obtain ⟨a'', hircal, hle'⟩ := hrespects.wait hwreg (k := .ircal) (item 4)
  have hle'' : a'' ≤ b := Nat.le_of_add_right_le (hrespects.next hircal hy)
  have hsum : a + d .wreg + d .ircal ≤ b := by omega
  refine ⟨⟨_, Option.some.inj hthird⟩, ⟨_, Option.some.inj hfourth⟩, item 3, item 4, hsum, fun tw tc htw htc => ?_⟩
  rwa [← hadmits .wreg tw htw, ← hadmits .ircal tc htc]

/-- A program of `n` packets that ends with a packet, at micro-op `j`, and the wait `k` behind it. -/
def EndsWithWait (prog : List MicroOp) (n j : Nat) (k : WaitKind) : Prop :=
  packetCount prog = n ∧ prog.length = j + 2 ∧ (∃ p, prog[j]? = some (.pkt p)) ∧ prog[j + 1]? = some (.wait k)

theorem EndsWithWait.ne_nil {prog : List MicroOp} {n j : Nat} {k : WaitKind} (h : EndsWithWait prog n j k) :
    prog ≠ [] := by
  obtain ⟨-, -, -, hwait⟩ := h
  exact List.ne_nil_of_mem (List.mem_of_getElem? hwait)

/-- Where the last packet, the trailing wait and what comes `later` stand among the items that are put out. -/
theorem EndsWithWait.getElem?_items {prog : List MicroOp} {n j : Nat} {k : WaitKind} (h : EndsWithWait prog n j k)
    (r : Bool) (later : List TraceItem) :
    (∃ p, (programItems r prog ++ later)[j]? = some (.sent p)) ∧
      (programItems r prog ++ later)[j + 1]? = some (.wait k) ∧
      (programItems r prog ++ later)[j + 2]? = later[0]? := by
  obtain ⟨-, hlen, ⟨p, hpkt⟩, hwait⟩ := h
  have hitems : (programItems r prog).length = j + 2 := by rw [programItems, List.length_map, hlen]
  refine ⟨⟨merge r p, ?_⟩, ?_, ?_⟩
  · rw [List.getElem?_append_left (by omega), programItems, List.getElem?_map, hpkt]
    rfl
  · rw [List.getElem?_append_left (by omega), programItems, List.getElem?_map, hwait]
    rfl
  · rw [List.getElem?_append_right (by omega), hitems, Nat.sub_self]

theorem spkdata_endsWithWait (c : Cfg) (samples : List Byte) : EndsWithWait (program c (.spkdata samples)) 1 0 .spk :=
  ⟨rfl, rfl, ⟨_, rfl⟩, rfl⟩

theorem iron_endsWithWait (c : Cfg) (m : IrMode) (sens : Sensitivity) :
    EndsWithWait (program c (.iron m sens)) 7 11 .wreg :=
  ⟨rfl, rfl, ⟨_, rfl⟩, rfl⟩

theorem wreg_endsWithWait (c : Cfg) (addr : Nat) (data : List Byte) :
    EndsWithWait (program c (.wreg addr data)) 1 0 .wreg :=
  ⟨rfl, rfl, ⟨_, rfl⟩, rfl⟩

/-- Every program begins with a packet. -/
theorem program_eq_pkt_cons {c : Cfg} {i : Instr} (h : program c i ≠ []) : ∃ p rest, program c i = .pkt p :: rest := by
  cases i with
  | mode | iron | iroff | leds | rumble | spken | spkmute | spkdata | feature | wreg => exact ⟨_, _, rfl⟩
  | _ => exact absurd rfl h

/-- The first item of a command is its first packet, accepted or not. -/
theorem packet_of_outItems_head {answers : List Bool} {r : Bool} {c : Cfg} {i : Instr} (h : program c i ≠ [])
    {y : TraceItem} (hy : (outItems answers r (program c i))[0]? = some y) : y.packet?.isSome = true := by
  obtain ⟨p, rest, hprog⟩ := program_eq_pkt_cons h
  rw [hprog, outItems] at hy
  split at hy <;>
  · obtain rfl := Option.some.inj hy
    rfl

/-- Settles O55: the next command's first packet stands behind the trailing wait. -/
theorem trailingWaitBindsTheNextCommand : Obligations.TrailingWaitBindsTheNextCommand := by
  intro s t u i first n j k d ready a b x y stamped hopen hfirst haccepts ht hu hprog htrace hadmits hrespects hx hy
  have hends : EndsWithWait (program s.cfg first) n j k := by
    rcases hfirst with ⟨samples, rfl, rfl, rfl, rfl⟩ | ⟨m, sens, rfl, rfl, rfl, rfl⟩ | ⟨addr, data, rfl, rfl, rfl, rfl⟩
    · exact spkdata_endsWithWait s.cfg samples
    · exact iron_endsWithWait s.cfg m sens
    · exact wreg_endsWithWait s.cfg addr data
  obtain ⟨htopen, htcfg, houtFirst⟩ := trace_of_exec_accepted hopen hends.ne_nil (by rwa [hends.1]) ht
  rw [exec_eq, State.whenOpen_isOpen t _ htopen] at hu
  obtain rfl := Host.Outcome.next.inj hu
  rw [openEffect_trace, houtFirst, htcfg, List.append_assoc] at htrace
  have item := map_fst_getElem? (List.append_cancel_left htrace).symm
  obtain ⟨⟨p, hlast⟩, htrailing, hbehind⟩ := hends.getElem?_items (s.flagged first).rumble
    (outItems t.sendOk (t.flagged i).rumble (program s.cfg i))
  rw [← item] at hlast htrailing hbehind
  rw [hx] at hlast
  rw [hy] at hbehind
  obtain rfl := Option.some.inj hlast
  obtain ⟨a', hwaited, hle⟩ := hrespects.wait hx htrailing
  have hle' : a' ≤ b := Nat.le_of_add_right_le (hrespects.next hwaited hy)
  have hsum : a + d k ≤ b := hle.trans hle'
  refine ⟨rfl, htrailing, packet_of_outItems_head hprog hbehind.symm, hsum, fun tk htk => ?_⟩
  rwa [← hadmits k tk htk]

end Sys2Proof.Machine
end

section
/-! PROOFS. The session (spec/43_session.md R191 to R198): a read and a write line by line, the queue over a packet's
reads, what each kind of call leaves alone, and several sessions. -/

namespace Sys2Proof.Machine

/-! ### A closed session -/

/-- Settles O38: every instruction runs under the guard of R194. -/
theorem closedSessionRunsNoInstruction : Obligations.ClosedSessionRunsNoInstruction := by
  intro s i code hclosed
  rw [exec_eq, State.whenOpen_closed s _ code hclosed]
  rfl

/-! ### Reads -/

section Reads

variable {s : State} {rest : List Call} (hs : s.seq = .idle) (hc : s.calls = .read :: rest)
include hs hc

theorem step_read_closed {code : ErrCode} (hx : s.session = .closed code) :
    step s = .next (State.raise { s with calls := rest } .closed) :=
  step_of_done (by simp only [State.fetch, hs, hc, hx])

theorem step_read_queued {e : Event} {q : List Event} (hx : s.session = .isOpen) (hq : s.queue = e :: q) :
    step s = .next (State.popReply { s with calls := rest }) :=
  step_of_done (by simp only [State.fetch, hs, hc, hx, State.takeRead, hq])

theorem step_read_failing {inbox : List ReadAnswer} (hx : s.session = .isOpen) (hq : s.queue = [])
    (hi : s.inbox = .fail :: inbox) : step s = .next (State.readFailed { s with calls := rest, inbox := inbox }) :=
  step_of_done (by simp only [State.fetch, hs, hc, hx, State.takeRead, hq, hi])

theorem step_read_report {buf : Packet} {n : Nat} {inbox : List ReadAnswer} (hx : s.session = .isOpen)
    (hq : s.queue = []) (hi : s.inbox = .packet buf n :: inbox) :
    step s = .next (State.deliver { s with calls := rest, inbox := inbox } (decodeReport s.cfg buf n).1
      (decodeReport s.cfg buf n).2) := by
  rw [step, State.fetch_report hs hc hx hq hi]
  exact step_report { s with calls := rest, inbox := inbox } buf n hx

end Reads

/-- Settles O36: each line of the pseudocode is one way to fetch. -/
theorem readFollowsItsPseudocode : Obligations.ReadFollowsItsPseudocode := by
  intro s rest hs hc
  refine ⟨fun code hx => ?_, fun e q hx hq => ?_, fun inbox hx hq hi => ?_, fun buf n inbox hx hq hi => ?_⟩
  · rw [step_read_closed hs hc hx]
    rfl
  · rw [step_read_queued hs hc hx hq, State.popReply_eq, hq]
    rfl
  · rw [step_read_failing hs hc hx hq hi, hs]
    rfl
  · rw [step_read_report hs hc hx hq hi, State.deliver_eq, hq]
    rfl

/-! ### Writes -/

/-- R194: on a closed session it does not matter which word is written. -/
theorem step_write_closed {s : State} {word : List Byte} {rest : List Call} {code : ErrCode} (hs : s.seq = .idle)
    (hc : s.calls = .write word :: rest) (hx : s.session = .closed code) :
    step s = .next (State.raise { s with calls := rest } .closed) := by
  by_cases hok : okCommandWord word
  · obtain ⟨i, hdec, -⟩ := (okCommandWord_iff word).mp hok
    rw [step_of_instr (State.fetch_write hs hc) hdec]
    exact closedSessionRunsNoInstruction { s with calls := rest } i code hx
  · rw [step_eq_badCommand hs hc hok, State.badCommand, State.whenOpen_closed { s with calls := rest } _ code hx]

/-- Settles O37: a word that is not well-formed is refused (R77), and one that is decodes to the command it encodes,
whose program runs. -/
theorem writeFollowsItsPseudocode : Obligations.WriteFollowsItsPseudocode := by
  intro s word rest hs hc
  refine ⟨fun code hx => ?_, fun hx hbad => ?_, fun hx hok => ?_⟩
  · rw [step_write_closed hs hc hx]
    rfl
  · rw [step_eq_badCommand hs hc hbad, State.badCommand_eq, if_pos hx]
  · obtain ⟨i, hdec, hprog⟩ := (okCommandWord_iff word).mp hok
    refine ⟨i, encode_of_decodeCommand hdec, hprog s.cfg, ?_⟩
    rw [step_of_instr (State.fetch_write hs hc) hdec]
    exact exec_eq_runBody hx (hprog s.cfg)

/-- Settles O43: by the lines of a write, whose loop leaves the read side alone, and by the lines of a read, none of
which runs the sequencer. -/
theorem writesAndReadsTouchDisjointState : Obligations.WritesAndReadsTouchDisjointState := by
  refine ⟨fun s t word rest hs hc hstep => ?_, fun s t rest hs hc hstep => ?_⟩
  · rcases step_cases s t hstep with ⟨_, _, hrun, -⟩ | ⟨-, word', rest', hc', hwrite⟩ | ⟨-, _, hread, -⟩
    · cases hs.symm.trans hrun
    · obtain ⟨rfl, rfl⟩ : word' = word ∧ rest' = rest := by simpa [hc] using hc'.symm
      rcases hwrite with ⟨_, -, rfl⟩ | ⟨-, rfl⟩ | ⟨-, i, -, -, rfl⟩
      · exact ⟨rfl, rfl, rfl, rfl⟩
      · exact ⟨rfl, rfl, rfl, rfl⟩
      · simp [State.runBody_frame, State.flagged_frame]
    · cases hc.symm.trans hread
  · rcases step_cases s t hstep with ⟨_, _, hrun, -⟩ | ⟨-, _, _, hwrite, -⟩ | ⟨-, rest', hc', hread⟩
    · cases hs.symm.trans hrun
    · cases hc.symm.trans hwrite
    · obtain rfl : rest' = rest := by simpa [hc] using hc'.symm
      rcases hread with ⟨_, -, rfl⟩ | ⟨-, -, rfl⟩ | ⟨-, -, _, -, rfl⟩ | ⟨-, -, _, _, _, -, rfl⟩
      · exact ⟨rfl, rfl, rfl, rfl⟩
      · rw [State.popReply_eq]
        exact ⟨rfl, rfl, rfl, rfl⟩
      · exact ⟨rfl, rfl, rfl, rfl⟩
      · rw [State.deliver_eq]
        exact ⟨rfl, rfl, rfl, rfl⟩

/-! ### The queue -/

/-- What a step does to QUEUE: at most a pop while the transport's answers stay; and a step that takes an answer finds
QUEUE empty, and leaves behind a packet's events but the first. -/
theorem step_queue_cases {s t : State} (hstep : step s = .next t) :
    (t.inbox = s.inbox ∧ (t.queue = s.queue ∨ t.queue = s.queue.tail)) ∨
    (s.queue = [] ∧ (t.queue = [] ∨
      ∃ buf n, s.inbox.head? = some (.packet buf n) ∧ t.queue = (decodeReport s.cfg buf n).1.tail)) := by
  rcases step_cases s t hstep with ⟨_, _, -, rfl⟩ | ⟨hs, word, rest, hc, -⟩ | ⟨-, rest, -, hread⟩
  · obtain ⟨-, -, hqueue, -, -, hinbox⟩ := s.seqStep_frame
    exact .inl ⟨hinbox, .inl hqueue⟩
  · obtain ⟨hqueue, -, hinbox, -⟩ := writesAndReadsTouchDisjointState.1 s t word rest hs hc hstep
    exact .inl ⟨hinbox, .inl hqueue⟩
  · rcases hread with ⟨_, -, rfl⟩ | ⟨-, -, rfl⟩ | ⟨-, hq, _, -, rfl⟩ | ⟨-, hq, buf, n, _, hi, rfl⟩
    · exact .inl ⟨rfl, .inl rfl⟩
    · rw [State.popReply_eq]
      exact .inl ⟨rfl, .inr rfl⟩
    · exact .inr ⟨hq, .inl hq⟩
    · rw [State.deliver_eq, hq]
      exact .inr ⟨rfl, .inr ⟨buf, n, by rw [hi]; rfl, rfl⟩⟩

/-- Settles O42: a packet has at most three events (R91), and its first is answered by the read that took it. -/
theorem queueNeverOverflows : Obligations.QueueNeverOverflows := by
  have hthree (c : Cfg) (buf : Packet) (n : Nat) : (decodeReport c buf n).1.length ≤ 3 := (decodeReport_ok c buf n).1
  refine ⟨hthree, fun s t hstep htaken => ?_, fun s t hstep hshort => ?_⟩
  · rcases step_queue_cases hstep with ⟨hkept, -⟩ | hempty
    · exact absurd hkept htaken
    · exact hempty
  · rcases step_queue_cases hstep with ⟨-, hq | hq⟩ | ⟨-, hq | ⟨buf, n, -, hq⟩⟩ <;> rw [hq]
    · exact hshort
    · rw [List.length_tail]
      omega
    · exact Nat.zero_le 2
    · have := hthree s.cfg buf n
      rw [List.length_tail]
      omega

/-- A run goes on from the next state of its first step. -/
theorem run_succ_of_step {M : Host.Core} {s t : M.State} (k : Nat) (h : M.step s = .next t) :
    M.run (k + 1) s = M.run k t := by
  rw [Host.Core.run, h]

/-- As many reads as there are queued events answer them in order. -/
theorem run_reads_queued (q : List Event) {s : State} {rest : List Call} (hs : s.seq = .idle)
    (hx : s.session = .isOpen) (hq : s.queue = q) (hc : s.calls = List.replicate q.length .read ++ rest) :
    (Sys2Proof.core.run q.length s : Host.Outcome State Fault Refusal) = .next
      { s with calls := rest, queue := [], replies := s.replies ++ q.map fun e => .readOk (some e) } := by
  induction q generalizing s with
  | nil =>
    obtain rfl : s.calls = rest := hc
    refine congrArg Host.Outcome.next ?_
    rw [List.map_nil, List.append_nil, ← hq]
  | cons e q ih =>
    obtain ⟨-, hpop, -⟩ := readFollowsItsPseudocode s (List.replicate q.length Call.read ++ rest) hs hc
    refine (run_succ_of_step (M := Sys2Proof.core) q.length (hpop e q hx hq)).trans ((ih ?_ ?_ rfl rfl).trans ?_)
    · exact hs
    · exact hx
    · rw [List.append_assoc]
      rfl

/-- Settles O41: the first read takes the packet and answers its first event, and the others find the rest queued. -/
theorem readsReturnOnePacketsEventsInOrder : Obligations.ReadsReturnOnePacketsEventsInOrder := by
  intro s buf n k rest inbox hs hx hq hi hlen hc
  obtain ⟨-, -, -, hreport⟩ := readFollowsItsPseudocode s (List.replicate k Call.read ++ rest) hs hc
  have hfirst := hreport buf n inbox hx hq hi
  obtain ⟨e, q, hevs⟩ := List.exists_cons_of_length_eq_add_one hlen
  obtain rfl : q.length = k := by simpa [hevs] using hlen
  rw [hevs] at hfirst ⊢
  refine (run_succ_of_step (M := Sys2Proof.core) q.length hfirst).trans
    ((run_reads_queued q ?_ ?_ rfl rfl).trans ?_)
  · exact hs
  · exact hx
  · rw [List.append_assoc, hq]
    rfl

/-! ### Several sessions -/

/-- Settles O56: by the variant and the matches. -/
theorem openCreatesResetSessions : Obligations.OpenCreatesResetSessions := by
  intro y found
  refine ⟨fun hv hnone => ?_, fun h rest hv hsome => ?_, fun hv => ?_⟩
  · simp only [System.openCall, openSessions, hv, hnone]
  · simp only [System.openCall, openSessions, hv, hsome, newSession]
  · simp only [System.openCall, openSessions, hv]
    rfl

/-- The system steps at a session exactly as the session steps, and puts the session's next state in its place. -/
theorem System.stepAt_eq_next_iff {y y' : System} {k : Fin y.sessions.length} :
    y.stepAt k = .next y' ↔ ∃ t, step y.sessions[k].core = .next t ∧
      y' = { y with sessions := y.sessions.set k { y.sessions[k] with core := t } } := by
  unfold System.stepAt
  cases step y.sessions[k].core <;> simp [eq_comm]

/-- Settles O57: a step at a session writes that session's place only, and reads its state only. -/
theorem sessionsAreIndependent : Obligations.SessionsAreIndependent := by
  intro y y' k hstep
  obtain ⟨t, ht, rfl⟩ := System.stepAt_eq_next_iff.mp hstep
  refine ⟨fun j hj => List.getElem?_set_ne hj.symm, ⟨_, List.getElem?_set_self k.isLt, rfl, ht⟩, fun z m hsame => ?_⟩
  exact ⟨_, _, _, System.stepAt_eq_next_iff.mpr ⟨t, hsame ▸ ht, rfl⟩, List.getElem?_set_self m.isLt,
    List.getElem?_set_self k.isLt, rfl⟩

end Sys2Proof.Machine
end

section
/-! PROOFS. Exceptions (spec/60_exceptions.md R218, R220): the closed session over any number of operations, and which
condition an operation reports when several apply. -/

namespace Sys2Proof.Machine

/-! ### The closed session -/

/-- R194: on a closed session the next operation, of either kind, is taken and answered E_CLOSED. -/
theorem step_closed {s : State} {call : Call} {rest : List Call} {code : ErrCode} (hs : s.seq = .idle)
    (hc : s.calls = call :: rest) (hx : s.session = .closed code) :
    step s = .next (State.raise { s with calls := rest } .closed) := by
  cases call with
  | write word => exact step_write_closed hs hc hx
  | read => exact step_read_closed hs hc hx

/-- Settles O39, by induction on the number of operations: an operation leaves the session closed and SEQ idle. -/
theorem closedIsAbsorbing : Obligations.ClosedIsAbsorbing := by
  intro k
  induction k with
  | zero =>
    intro s code _ _ _
    refine congrArg Host.Outcome.next ?_
    rw [List.drop_zero, List.replicate_zero, List.append_nil]
  | succ k ih =>
    intro s code hx hs hk
    cases hc : s.calls with
    | nil => simp [hc] at hk
    | cons call rest =>
      have hrest : k ≤ rest.length := by simpa [hc] using hk
      have hrun := ih (State.raise { s with calls := rest } .closed) code hx hs hrest
      refine (run_succ_of_step (M := Sys2Proof.core) k (step_closed hs hc hx)).trans (hrun.trans ?_)
      rw [State.raise_replies, List.append_assoc, List.replicate_succ]
      rfl

/-! ### The order of the conditions -/

/-- A write whose `j`-th micro-op is the first packet that the transport refuses reports that index (R214). -/
theorem step_write_refused {s : State} {word : List Byte} {rest : List Call} {i : Instr} {j : Nat} {p : Packet}
    (hs : s.seq = .idle) (hc : s.calls = .write word :: rest) (hx : s.session = .isOpen)
    (hd : decode s.cfg (.command word) = .instr i) (hp : (program s.cfg i)[j]? = some (.pkt p))
    (haccepts : s.accepts (packetCount ((program s.cfg i).take j)) = true)
    (hrefused : s.sendOk[packetCount ((program s.cfg i).take j)]? = some false) :
    ∃ t, step s = .next t ∧ t.replies = s.replies ++ [.error (.transportWrite j)] := by
  have hexec := refusedPacketEndsTheCommandPrecisely { s with calls := rest } i j p hx hp haccepts hrefused
  refine ⟨_, (step_of_instr (State.fetch_write hs hc) hd).trans hexec, ?_⟩
  simp [State.afterFailure, State.flagged_frame]

/-- A tag outside the table is logged as unknown, whatever the count above 0 (R110). -/
theorem decodeReport_of_not_mem_tags {c : Cfg} {buf : Packet} {n : Nat} (hpos : 0 < min n c.pktLen)
    (ht : byteAt buf 0 ∉ c.itag.toList) : decodeReport c buf n = ([], some (.unknownTag (byteAt buf 0))) :=
  decodeReport_unknown c buf n hpos.ne' ((lookupTag_eq_none c _).mpr (by simpa using ht))

/-- Settles O40: the lines of a write (R191), of a read (R192) and of the dispatch (R92) stand in R218's order. -/
theorem firstMatchingConditionIsReported : Obligations.FirstMatchingConditionIsReported := by
  refine ⟨fun s word rest code hs hc hx => ?_, fun s word rest hs hc hx hbad => ?_,
    fun s word rest i j p hs hc hx hd hp ha hr => step_write_refused hs hc hx hd hp ha hr,
    fun s rest code hs hc hx => ?_, fun s e q rest hs hc hx hq => ?_, fun s rest inbox hs hc hx hq hi => ?_,
    fun c buf => decodeReport_empty c buf 0 (Nat.zero_min _),
    fun c buf n hpos ht => decodeReport_of_not_mem_tags hpos ht, fun c buf n br hwf hpos ht hshort => ?_⟩
  · obtain ⟨hclosed, -⟩ := writeFollowsItsPseudocode s word rest hs hc
    exact hclosed code hx
  · obtain ⟨-, hbadCommand, -⟩ := writeFollowsItsPseudocode s word rest hs hc
    exact hbadCommand hx hbad
  · obtain ⟨hclosed, -⟩ := readFollowsItsPseudocode s rest hs hc
    exact hclosed code hx
  · obtain ⟨-, hqueued, -⟩ := readFollowsItsPseudocode s rest hs hc
    exact hqueued e q hx hq
  · obtain ⟨-, -, hfailing, -⟩ := readFollowsItsPseudocode s rest hs hc
    exact ⟨_, hfailing inbox hx hq hi, rfl⟩
  · rw [decodeReport_of_branchTag hwf hpos br ht, if_pos hshort]

end Sys2Proof.Machine
end

section
/-! PROOFS. Reset and what no step changes (spec/70_reset_and_hazards.md R240, spec/10_state.md R31): the state a new
session has, the session invariant in it, and the configuration over a step. -/

namespace Sys2Proof.Machine

/-! ### Reset -/

/-- Settles O50: `open()` writes R240's values into the fields, whatever the configuration, and reset is `open()` with
REFCFG. -/
theorem resetStateIsTheTable : Obligations.ResetStateIsTheTable :=
  ⟨fun _ => ⟨rfl, rfl, rfl, rfl, rfl, rfl⟩, rfl, rfl, rfl, rfl, rfl⟩

/-- The base case of the session invariant: R240's values are legal, and its empty QUEUE and trace hold nothing that
could be ill-formed. -/
theorem State.Inv.opened {c : Cfg} (hc : c.wf = true) : (State.opened c).Inv := by
  obtain ⟨hsession, -, hqueue, hseq, -, htrace⟩ := resetStateIsTheTable.1 c
  exact {
    cfg_wf := hc
    session_ok := by rw [hsession, Session.ok]
    seq_ok := by rw [hseq, Seq.ok]
    queue_short := by simp [hqueue]
    queue_ok := by rw [hqueue, List.all_nil]
    trace_ok := by rw [htrace, List.all_nil] }

/-- Settles O51: by the base case, and because REFCFG is inside the spec. -/
theorem invariantHoldsOfNewSessions : Obligations.InvariantHoldsOfNewSessions :=
  ⟨fun _ hc => State.Inv.opened hc, State.Inv.opened refCfg_wf⟩

/-! ### The configuration -/

/-- Settles O49: by the cases of a step. A transition of the sequencer and the loop of a write leave Cfg alone (their
frames), and no answer, pop or delivery writes it. -/
theorem configurationNeverChanges : Obligations.ConfigurationNeverChanges := by
  intro s t hstep
  rcases step_cases s t hstep with ⟨_, _, -, rfl⟩ | ⟨-, word, rest, -, hwrite⟩ | ⟨-, rest, -, hread⟩
  · exact s.seqStep_frame.1
  · rcases hwrite with ⟨_, -, rfl⟩ | ⟨-, rfl⟩ | ⟨-, i, -, -, rfl⟩
    · rfl
    · rfl
    · obtain ⟨hbody, -⟩ := (State.flagged { s with calls := rest } i).runBody_frame 0 (program s.cfg i)
      obtain ⟨hflagged, -⟩ := State.flagged_frame { s with calls := rest } i
      exact hbody.trans hflagged
  · rcases hread with ⟨_, -, rfl⟩ | ⟨-, -, rfl⟩ | ⟨-, -, _, -, rfl⟩ | ⟨-, -, _, _, _, -, rfl⟩
    · rfl
    · rw [State.popReply_eq]
    · rfl
    · rw [State.deliver_eq]

end Sys2Proof.Machine
end
